-- ==== Sys2Proof/Word.lean ====
section
/-! DEFINITION. The word types and sparse maps of the model. A sparse map is a list of key and value pairs in one canonical form (keys strictly rising, no entry that equals the default of its key), so that equal maps are equal data. -/

namespace Sys2Proof

/-- One byte. -/
abbrev Byte := BitVec 8

/-- One 32-bit word: the width of a register of the window (R64). -/
abbrev Word := BitVec 32

/-- One 64-bit value: a scalar of a thread (R131) or a timebase sample (R70). -/
abbrev Dword := BitVec 64

/-- A vector register of a thread: 64 bytes (R131). -/
abbrev VecReg := BitVec 512

/-- A sparse map from keys to values; a key that is not listed holds the map's default. -/
abbrev SMap (α : Type) := List (Nat × α)

namespace SMap

variable {α : Type}

/-- The value of key `k`, or the default `d k`. -/
def get (d : Nat → α) : SMap α → Nat → α
  | [], k => d k
  | (k', v) :: m, k => if k = k' then v else get d m k

/-- Take key `k` out of the map. -/
def erase : SMap α → Nat → SMap α
  | [], _ => []
  | (k', v) :: m, k => if k = k' then erase m k else (k', v) :: erase m k

/-- Put `(k, v)` at its place in a map whose keys rise. -/
def insert : SMap α → Nat → α → SMap α
  | [], k, v => [(k, v)]
  | (k', v') :: m, k, v =>
    if k < k' then (k, v) :: (k', v') :: m
    else if k = k' then (k, v) :: m
    else (k', v') :: insert m k v

/-- Store `v` under `k`, keeping the canonical form. -/
def set [DecidableEq α] (d : Nat → α) (m : SMap α) (k : Nat) (v : α) : SMap α :=
  if v = d k then erase m k else insert m k v

/-- Every key of the map is above `n`. -/
def above (n : Nat) : SMap α → Prop
  | [] => True
  | (k, _) :: m => n < k ∧ above n m

/-- The canonical form: keys strictly rising, no entry equal to its default. -/
def wf (d : Nat → α) : SMap α → Prop
  | [] => True
  | (k, v) :: m => above k m ∧ v ≠ d k ∧ wf d m

/-- The canonical form as a test. -/
def canonical [DecidableEq α] (d : Nat → α) : SMap α → Bool
  | [] => true
  | (k, v) :: m => m.all (fun e => decide (k < e.1)) && decide (v ≠ d k) && canonical d m

/-- The keys that are listed. -/
def keys (m : SMap α) : List Nat := m.map (·.1)

/-- The value listed under `k`, if one is. -/
def find : SMap α → Nat → Option α
  | [], _ => none
  | (k', v) :: m, k => if k = k' then some v else find m k

/-- List `v` under `k` (for maps that hold only what exists). -/
def put (m : SMap α) (k : Nat) (v : α) : SMap α := insert m k v

/-- Change the value under `k`, where one is listed. -/
def modify (m : SMap α) (k : Nat) (f : α → α) : SMap α :=
  m.map fun e => if e.1 = k then (e.1, f e.2) else e

/-- Change every value. -/
def mapVals (m : SMap α) (f : Nat → α → α) : SMap α := m.map fun e => (e.1, f e.1 e.2)

/-- Keep the entries that `p` accepts. -/
def keep (m : SMap α) (p : Nat → α → Bool) : SMap α := m.filter fun e => p e.1 e.2

/-- How many entries `p` accepts. -/
def count (m : SMap α) (p : Nat → α → Bool) : Nat := (m.filter fun e => p e.1 e.2).length

end SMap

end Sys2Proof
end

