-- ==== Sys2Proof/Forms.lean ====
section
/-! DEFINITION. The operand forms of the commands: the instruction formats of Table 5.2, and what an event of a port, a unit or a check carries. -/

namespace Sys2Proof

/-- Format R of Table 5.2: D, A, B, element width W and predicate P. -/
structure RForm where
  d : BitVec 5
  a : BitVec 5
  b : BitVec 5
  w : BitVec 2
  p : BitVec 3
  deriving DecidableEq, Repr

/-- Format I of Table 5.2: D, A and a signed 12-bit immediate. -/
structure IForm where
  d : BitVec 5
  a : BitVec 5
  imm : BitVec 12
  deriving DecidableEq, Repr

/-- Format M of Table 5.2: D, A and a signed 13-bit immediate. -/
structure MForm where
  d : BitVec 5
  a : BitVec 5
  imm : BitVec 13
  deriving DecidableEq, Repr

/-- VLD and VST: format M with the predicate P in the FN field (R143, Table 5.9). -/
structure VMForm where
  d : BitVec 5
  a : BitVec 5
  p : BitVec 3
  imm : BitVec 13
  deriving DecidableEq, Repr

/-- Format B of Table 5.2: A, B and a signed 13-bit word offset. -/
structure BForm where
  a : BitVec 5
  b : BitVec 5
  off : BitVec 13
  deriving DecidableEq, Repr

/-- Format J of Table 5.2: D and a signed 21-bit word offset. -/
structure JForm where
  d : BitVec 5
  off : BitVec 21
  deriving DecidableEq, Repr

/-- Format S of Table 5.2: SH, CR, CTR and V. -/
structure SForm where
  sh : BitVec 1
  cr : BitVec 5
  ctr : BitVec 12
  v : BitVec 5
  deriving DecidableEq, Repr

/-- LI (R137): D, H, the bits [19:0] that must be 0, and the extension word. -/
structure LIForm where
  d : BitVec 5
  h : BitVec 1
  lo : BitVec 20
  ext : Word
  deriving DecidableEq, Repr

/-- Format T of Table 5.2, both words but MAJOR; OP is a field only where Table 5.12 puts a unit in it. -/
structure TForm where
  op : BitVec 5
  ta : BitVec 4
  tb : BitVec 4
  tc : BitVec 4
  sx : BitVec 5
  md : BitVec 4
  sh : BitVec 1
  ctr : BitVec 12
  inc : BitVec 8
  sy : BitVec 5
  imm : BitVec 6
  deriving DecidableEq, Repr

/-- What the devices give to the reads of a piece of a stripe unit (R317): for each of its codewords that does not decode
at the default read level, by its number in the unit, the read-retry options at which it does; and for those that decode
at none, their data bytes as they came from the last read. (DEDUCED, log entry 97) -/
structure PageRead where
  words : List (Nat × List Nat)
  raw : List (Nat × List Byte)
  deriving DecidableEq, Repr

/-- What a NAND target reports of itself (Table 11.1): a parameter page with a valid CRC, the commands and interfaces of
the table, whether it advertises ONFI training, its geometry, and its read-retry options. (DEDUCED, log entry 97) -/
structure NandId where
  page : Bool
  commands : Bool
  training : Bool
  dataBytes : Nat
  spareBytes : Nat
  planes : Nat
  luns : Nat
  pages : Nat
  blocks : Nat
  retries : Nat
  deriving DecidableEq, Repr

/-- What MOUNT and FORMAT find on the channels (R305, R307, R310, R321): the targets that answer, with what they report;
the blocks with the factory bad-block marking (target, LUN, plane, block); for each channel the delay codes at which reads
and writes pass the training pattern; and the targets whose anchors cannot be read. (DEDUCED, log entry 97) -/
structure NandScan where
  ids : List (Nat × NandId)
  marks : List (Nat × Nat × Nat × Nat)
  passing : List (Nat × List Nat × List Nat)
  unread : List Nat
  deriving DecidableEq, Repr

/-- The two moments of a tensor-issue row: the thread issues it (R152), or its unit does the work of the command
with that serial number (R156, R188). -/
inductive TStep where
  | issue (th : Nat) (f : TForm)
  | work (id : Nat)
  deriving DecidableEq, Repr

/-- The strap inputs of Table 2.2, as they stand at the rise of `fk_cold_rst_n`. -/
structure Straps where
  mem : BitVec 4
  cam : BitVec 12
  nand : BitVec 8
  fe : Bool
  fw : Bool
  tb : Bool
  mfr : BitVec 11
  deriving DecidableEq, Repr

/-- What self-test finds (R447): the SRAM macros that it repairs (with the number of spares used), the macros that
it fences, the units that fail twice, the units that fail once, whether a Control unit failed, and its duration. -/
structure SelfTest where
  repairs : List (Nat × Nat)
  fenced : List Nat
  lasting : List Nat
  transient : List Nat
  stand8Engine : Bool
  stand8Cores : Nat
  fatal : Bool
  timeUs : Nat
  deriving DecidableEq, Repr

/-- Who made a memory request (R327, R454): a skidder or the gather engine for a tensor command, a translation walk, a
queue's entry fetch, the byte that clears OWN, a completion ring, the fault ring, the delivery of a deck channel, a
receive port, or the log store. -/
inductive Agent where
  | skidder (k id : Nat)
  | gather (id : Nat)
  | walk
  | fetch (sq : Nat)
  | own (sq : Nat)
  | ring (r : Nat)
  | faultRing
  | landing (ch : Nat)
  | rxPort (r : Nat)
  | logStore
  deriving DecidableEq, Repr

/-- One memory request as it transfers (Table 2.8): its direction, the line address PA[51:6], its agent, and for a
write its data and byte enables. -/
structure MemReq where
  write : Bool
  line : Nat
  agent : Agent
  data : BitVec 512
  be : BitVec 64
  deriving DecidableEq, Repr

/-- A hardware fault as a check finds it (R409, Table 15.2): the unit, the check, whether the repeat failed too, the
SRAM macro and row for CHECK 1, whether the macro still has a spare for it, and the job or command that held it. -/
structure FaultInfo where
  unit : Nat
  check : Nat
  lasting : Bool
  macroNo : Nat
  row : Nat
  corrected : Bool
  eighth : Bool
  cmds : List Nat
  deriving DecidableEq, Repr

/-- One flume packet (R361, R364, R365): 256 bytes and its tag. -/
structure Packet where
  tag : BitVec 12
  data : BitVec 2048
  deriving DecidableEq, Repr

end Sys2Proof
end

