-- ==== Sys2Proof/Syntax.lean ====
section
/-! DEFINITION. The commands of the block: one constructor per row of the opcode table, in the table's order. A host command carries the data written, a thread instruction the thread's number and its fields, an event of a port, a unit or a check what arrived or was found (DEDUCED, log entry 5). -/

namespace Sys2Proof

/-- A command: one row of the opcode table. -/
inductive Instr where
  /-- COLD_RESET_ASSERT (R51): fk_cold_rst_n falls; cold reset takes effect without a clock and puts the block domain in reset. -/
  | coldResetAssert
  /-- COLD_RESET_RELEASE (R39): fk_cold_rst_n rises; straps are sampled and reduced, and the GLB and other VDD_AO registers begin to answer. -/
  | coldResetRelease (st : Straps)
  /-- WARM_RESET_ASSERT (R52): fk_warm_rst_n falls and the block domain enters reset. -/
  | warmResetAssert
  /-- WARM_RESET_RELEASE (R52): fk_warm_rst_n rises, which clears one cause that holds the block domain in reset. -/
  | warmResetRelease
  /-- PWROK_RISE (R50): fk_fk_pwrok rises, reporting that VDD_FK is in range. -/
  | pwrokRise
  /-- PWROK_FALL (R54): fk_fk_pwrok falls; the block domain enters reset and carries out as much of Table 2.7 as VDD_FK allows. -/
  | pwrokFall
  /-- VDD_FK_LOSS (R56): VDD_FK is lost; outputs are clamped, fk_m_quiet reads 1 and the memory side must discard outstanding responses. -/
  | vddFkLoss
  /-- VDD_AO_EXCURSION (R452): VDD_AO leaves its range; the register port and control island become undefined until a cold reset. -/
  | vddAoExcursion
  /-- BLOCK_DOMAIN_RESET_ENTRY (R54): A block-domain reset cause appears; the bypass closes, triggers fall, memory and NAND quiesce, and block-domain state is reset. -/
  | blockDomainResetEntry
  /-- BLOCK_DOMAIN_RESET_EXIT (R52): Once the entry sequence is done and every cause has cleared, the block domain leaves reset and either reapplies repair or starts self-test. -/
  | blockDomainResetExit
  /-- SELF_TEST_DONE (R447): Self-test ends; repairs and spare state are built, SRAM is zeroed, SPR_SELFTEST is set, and BLOCK_READY rises unless FATAL. -/
  | selfTestDone (r : SelfTest)
  /-- PFAIL_ASSERT (R74): fk_pfail_n falls; no new program or erase starts while reads continue. -/
  | pfailAssert
  /-- PFAIL_DEASSERT (R74): fk_pfail_n rises and program and erase commands may start again. -/
  | pfailDeassert
  /-- REGISTER_WRITE (R64): A host write to a register that has no row of its own, with its effect taken before the acknowledge. -/
  | registerWrite (off : BitVec 20) (data : Word)
  /-- HI_WRITE_COMMIT (R15): A write to a _HI register commits the staged _LO value and the new _HI value together. -/
  | hiWriteCommit (off : BitVec 20) (data : Word)
  /-- LO_READ_CAPTURE (R16): A read of a _LO register returns the low half and captures the high half for the next _HI read. -/
  | loReadCapture (off : BitVec 20)
  /-- REGISTER_ACCESS_TIMEOUT (R65): A register access whose target has not answered after 512 hclk cycles completes with fk_h_err 1. -/
  | registerAccessTimeout (wr : Bool) (off : BitVec 20)
  /-- HCLK_RESTART (R452): fk_hclk starts again and pending or held register accesses continue. -/
  | hclkRestart
  /-- TIMEBASE_SAMPLE (R70): The block samples fk_timebase and updates the time used for stamps, ages and triggers. -/
  | timebaseSample (now : Dword)
  /-- TB_CLK_RESTART (R47): fk_tb_clk restarts; the first sample is compared with the last one and may count as a discontinuity. -/
  | tbClkRestart (now : Dword)
  /-- TRIGGER_RISE (R71): The timebase reaches the scheduled target and fk_trig[k] rises. -/
  | triggerRise (k : Nat)
  /-- TRIGGER_FALL (R71): The timebase reaches the target plus WIDTH; fk_trig[k] falls and the next target is scheduled. -/
  | triggerFall (k : Nat)
  /-- CAM_TRIG_WRITE (R72): A write to a trigger register takes effect at the next fall or at once, and setting EN schedules the next target. -/
  | camTrigWrite (off : BitVec 20) (data : Word)
  /-- MEM_READ_RESPONSE (R63): A read response transfer arrives; its data is placed, an ERROR or POISON response is retried once, and a spurious tag is counted. -/
  | memReadResponse (chan : Nat) (tag : Nat) (code : Nat) (data : BitVec 512)
  /-- MEM_WRITE_ACK (R63): A write acknowledge arrives and frees its tag, with an error response retried or captured. -/
  | memWriteAck (chan : Nat) (tag : Nat) (code : Nat)
  /-- BYPASS_CLOSE (R76): The flume bypass closes at an fclk edge within 16 cycles after a closing condition arises. -/
  | bypassClose
  /-- BYPASS_OPEN (R76): The flume bypass opens at an fclk edge within 16 cycles after every closing condition has cleared. -/
  | bypassOpen
  /-- GLB_BYP_WRITE (R76): A write to GLB_BYP.FORCE closes or releases the bypass, and a write of 0 is ignored while the block domain is in reset. -/
  | glbBypWrite (data : Word)
  /-- TAP_RESET (R67): The TAP is reset by trst, cold reset or five TMS-high edges, and IDCODE is selected. -/
  | tapReset
  /-- TAP_INSTRUCTION (R67): A TAP instruction is loaded and selects IDCODE, OBS_CTRL, OBS_DATA or BYPASS. -/
  | tapInstruction (op : Byte)
  /-- OBS_CTRL_UPDATE (R431): An Update-DR of OBS_CTRL sets ADDR and may start a dump (GO) or clear VALID (CLEAR). -/
  | obsCtrlUpdate (data : Word)
  /-- OBS_DATA_CAPTURE (R431): A Capture-DR of OBS_DATA loads the dump word at ADDR and advances ADDR. -/
  | obsDataCapture
  /-- PACE_WINDOW_END (R86): A pace window ends; each monitor updates NOW and MIN, and PACE_SLOW and the floor check are updated. -/
  | paceWindowEnd (beats : List (Nat × Nat))
  /-- PACE_CLR_MIN (R86): Writing PACE_CTRL.CLR_MIN sets MIN of every monitor to 0xFFF. -/
  | paceClrMin (data : Word)
  /-- PSTORE_WINDOW_WRITE (R451): A host write to the program-store window stores a word, or fails with fk_h_err while the block domain is in reset. -/
  | pstoreWindowWrite (off : BitVec 20) (data : Word)
  /-- SYNC_ADD_WRITE (R110): A SYNC_ADD write adds to the selected shared counter, indivisibly with concurrent signals. -/
  | syncAddWrite (data : Word)
  /-- SYNC_VAL_WRITE (R110): A SYNC_VAL write replaces the value of a selected shared counter. -/
  | syncValWrite (data : Word)
  /-- SYNC_CFG_WRITE (R111): A SYNC_CFG write sets the producer queue and epoch of a shared counter. -/
  | syncCfgWrite (data : Word)
  /-- SYNC_POOL_WRITE (R112): A SHARED_BASE write takes effect only while no pool counter is lent. -/
  | syncPoolWrite (data : Word)
  /-- XL_INV_GO (R122): Writing XL_INV with GO = 1 starts an invalidation of the given scope and sets BUSY. -/
  | xlInvGo (data : Word)
  /-- XL_INV_DONE (R122): An invalidation finishes once no translation in scope remains and the relevant walks and accesses have ended; BUSY clears. -/
  | xlInvDone
  /-- XL_CTX_ENABLE (R117): Writing XL_CTX_CFG.EN = 1 while STATE is off makes the context active. -/
  | xlCtxEnable (c : Nat) (data : Word)
  /-- CONTEXT_TEARDOWN (R401): Clearing XL_CTX_CFG.EN starts teardown of the context: it is fenced, its queues drain, its commands end and its resources are freed. -/
  | contextTeardown (c : Nat) (data : Word)
  /-- TEARDOWN_COMPLETE (R401): Teardown ends; the jobs complete, STATE returns to off, QM_TDN is set and the TEARDOWN and SQ_OFF causes are raised. -/
  | teardownComplete (c : Nat) (us : Nat)
  /-- TRANSLATION_WALK (R116): A table walk for a translation miss completes and yields a leaf or a fault. -/
  | translationWalk (kind : Nat) (n : Nat) (va : Nat) (write : Bool) (code : Nat)
  /-- FID_WAIT_GRANT (R124): A faulting transfer that held without an FID takes one, with its record, when an FID is freed. -/
  | fidWaitGrant
  /-- FAULT_RECORD_WRITE (R125): A waiting fault record is written to the fault ring once there is room; TAIL advances and the XLATE cause is set. -/
  | faultRecordWrite (code : Nat)
  /-- XL_FQ_RESUME (R127): An XL_FQ_ACT resume with a matching FID and SEQ continues the suspended transfer from its cursor. -/
  | xlFqResume (data : Word)
  /-- XL_FQ_ABORT (R127): An XL_FQ_ACT abort ends the suspended transfer with fill and XLATE_FAULT or PROTECT_FAULT. -/
  | xlFqAbort (data : Word)
  /-- XL_FQ_HEAD_WRITE (R129): An XL_FQ_HEAD write releases records, and a bad value is ignored and counted in BADACT. -/
  | xlFqHeadWrite (data : Word)
  /-- XL_FQ_CONFIG_WRITE (R128): An XL_FQ_BASE or XL_FQ_SIZE write is applied only while nothing is suspended or waiting, and SIZE resets HEAD and TAIL. -/
  | xlFqConfigWrite (off : BitVec 20) (data : Word)
  /-- JOB_START (R100): The dispatcher starts a job once thread slots, counters and a scratchpad region are free together, reserving all three at once. -/
  | jobStart (n : Nat)
  /-- THREAD_START (R101): A remaining thread of a job starts, in index order, when a thread slot frees. -/
  | threadStart (j : Nat)
  /-- JOB_COMPLETE (R103): With every thread and command ended and every slot disposed of, the job returns its resources and posts its completion. -/
  | jobComplete (j : Nat)
  /-- ADD (R138): Scalar add modulo 2^64. -/
  | add (th : Nat) (f : RForm)
  /-- SUB (R138): Scalar subtract. -/
  | sub (th : Nat) (f : RForm)
  /-- AND (R138): Scalar bitwise AND. -/
  | and (th : Nat) (f : RForm)
  /-- OR (R138): Scalar bitwise OR. -/
  | or (th : Nat) (f : RForm)
  /-- XOR (R138): Scalar bitwise XOR. -/
  | xor (th : Nat) (f : RForm)
  /-- SLL (R138): Scalar shift left logical. -/
  | sll (th : Nat) (f : RForm)
  /-- SRL (R138): Scalar shift right logical. -/
  | srl (th : Nat) (f : RForm)
  /-- SRA (R138): Scalar shift right arithmetic. -/
  | sra (th : Nat) (f : RForm)
  /-- MUL (R138): Low 64 bits of a scalar product. -/
  | mul (th : Nat) (f : RForm)
  /-- MULHS (R138): High 64 bits of the signed 128-bit product. -/
  | mulhs (th : Nat) (f : RForm)
  /-- MULHU (R138): High 64 bits of the unsigned 128-bit product. -/
  | mulhu (th : Nat) (f : RForm)
  /-- SLT (R138): Signed less-than compare. -/
  | slt (th : Nat) (f : RForm)
  /-- SLTU (R138): Unsigned less-than compare. -/
  | sltu (th : Nat) (f : RForm)
  /-- SEQ (R138): Equality compare. -/
  | seq (th : Nat) (f : RForm)
  /-- MIN (R138): Signed minimum. -/
  | min (th : Nat) (f : RForm)
  /-- MAX (R138): Signed maximum. -/
  | max (th : Nat) (f : RForm)
  /-- MINU (R138): Unsigned minimum. -/
  | minu (th : Nat) (f : RForm)
  /-- MAXU (R138): Unsigned maximum. -/
  | maxu (th : Nat) (f : RForm)
  /-- CLZ (R138): Count leading zeros. -/
  | clz (th : Nat) (f : RForm)
  /-- CTZ (R138): Count trailing zeros. -/
  | ctz (th : Nat) (f : RForm)
  /-- POPC (R138): Count set bits. -/
  | popc (th : Nat) (f : RForm)
  /-- ADDI (R138): Add a sign-extended immediate. -/
  | addi (th : Nat) (f : IForm)
  /-- ANDI (R138): AND with an immediate. -/
  | andi (th : Nat) (f : IForm)
  /-- ORI (R138): OR with an immediate. -/
  | ori (th : Nat) (f : IForm)
  /-- XORI (R138): XOR with an immediate. -/
  | xori (th : Nat) (f : IForm)
  /-- SLLI (R138): Shift left by an immediate. -/
  | slli (th : Nat) (f : IForm)
  /-- SRLI (R138): Shift right logical by an immediate. -/
  | srli (th : Nat) (f : IForm)
  /-- SRAI (R138): Shift right arithmetic by an immediate. -/
  | srai (th : Nat) (f : IForm)
  /-- SLTI (R138): Signed compare with an immediate. -/
  | slti (th : Nat) (f : IForm)
  /-- SLTIU (R138): Unsigned compare with an immediate. -/
  | sltiu (th : Nat) (f : IForm)
  /-- LI (R137): Loads a 32-bit constant from the extension word, sign-extended or into the high half. -/
  | li (th : Nat) (f : LIForm)
  /-- NOP (R138): System no-operation. -/
  | nop (th : Nat) (f : RForm)
  /-- END (R153): The thread ends while its issued tensor commands continue. -/
  | endThread (th : Nat) (f : RForm)
  /-- FENCE (R145): Waits until every earlier store and AMO of the thread is visible. -/
  | fence (th : Nat) (f : RForm)
  /-- RDTIME (R138): Reads the latest timebase sample. -/
  | rdtime (th : Nat) (f : RForm)
  /-- RDTLY (R444): Reads a tally counter when TLY_USER_EN permits, and 0 otherwise. -/
  | rdtly (th : Nat) (f : RForm)
  /-- TSTAT (R134): Reads the thread's tensor status summary tst. -/
  | tstat (th : Nat) (f : RForm)
  /-- TRAP (R160): Raises the TRAP exception. -/
  | trap (th : Nat) (f : RForm)
  /-- PAND (R139): Predicate AND. -/
  | pand (th : Nat) (f : RForm)
  /-- POR (R139): Predicate OR. -/
  | por (th : Nat) (f : RForm)
  /-- PXOR (R139): Predicate XOR. -/
  | pxor (th : Nat) (f : RForm)
  /-- PANDN (R139): Predicate AND NOT. -/
  | pandn (th : Nat) (f : RForm)
  /-- PNOT (R139): Predicate NOT. -/
  | pnot (th : Nat) (f : RForm)
  /-- PMOVS (R139): Moves a scalar into a predicate. -/
  | pmovs (th : Nat) (f : RForm)
  /-- PTOS (R139): Moves a predicate into a scalar. -/
  | ptos (th : Nat) (f : RForm)
  /-- PFIRST (R139): Sets the first n predicate bits. -/
  | pfirst (th : Nat) (f : RForm)
  /-- PCNT (R139): Counts the set predicate bits. -/
  | pcnt (th : Nat) (f : RForm)
  /-- VADD (R139): Vector add. -/
  | vadd (th : Nat) (f : RForm)
  /-- VSUB (R139): Vector subtract. -/
  | vsub (th : Nat) (f : RForm)
  /-- VMUL (R139): Vector multiply, low bytes. -/
  | vmul (th : Nat) (f : RForm)
  /-- VMULHS (R139): Vector signed multiply, high bytes. -/
  | vmulhs (th : Nat) (f : RForm)
  /-- VMULHU (R139): Vector unsigned multiply, high bytes. -/
  | vmulhu (th : Nat) (f : RForm)
  /-- VMIN (R139): Vector signed minimum. -/
  | vmin (th : Nat) (f : RForm)
  /-- VMAX (R139): Vector signed maximum. -/
  | vmax (th : Nat) (f : RForm)
  /-- VMINU (R139): Vector unsigned minimum. -/
  | vminu (th : Nat) (f : RForm)
  /-- VMAXU (R139): Vector unsigned maximum. -/
  | vmaxu (th : Nat) (f : RForm)
  /-- VAND (R139): Vector AND. -/
  | vand (th : Nat) (f : RForm)
  /-- VOR (R139): Vector OR. -/
  | vor (th : Nat) (f : RForm)
  /-- VXOR (R139): Vector XOR. -/
  | vxor (th : Nat) (f : RForm)
  /-- VSLL (R139): Vector shift left. -/
  | vsll (th : Nat) (f : RForm)
  /-- VSRL (R139): Vector shift right logical. -/
  | vsrl (th : Nat) (f : RForm)
  /-- VSRA (R139): Vector shift right arithmetic. -/
  | vsra (th : Nat) (f : RForm)
  /-- VADDS (R139): Vector signed saturating add. -/
  | vadds (th : Nat) (f : RForm)
  /-- VADDUS (R139): Vector unsigned saturating add. -/
  | vaddus (th : Nat) (f : RForm)
  /-- VSUBS (R139): Vector signed saturating subtract. -/
  | vsubs (th : Nat) (f : RForm)
  /-- VSUBUS (R139): Vector unsigned saturating subtract. -/
  | vsubus (th : Nat) (f : RForm)
  /-- VAVGU (R139): Vector unsigned rounding average. -/
  | vavgu (th : Nat) (f : RForm)
  /-- VABSD (R139): Vector absolute difference. -/
  | vabsd (th : Nat) (f : RForm)
  /-- VCEQ (R139): Vector equality compare into a predicate. -/
  | vceq (th : Nat) (f : RForm)
  /-- VCLT (R139): Vector signed less-than compare into a predicate. -/
  | vclt (th : Nat) (f : RForm)
  /-- VCLTU (R139): Vector unsigned less-than compare into a predicate. -/
  | vcltu (th : Nat) (f : RForm)
  /-- VSPLAT (R139): Broadcasts a scalar to the active elements. -/
  | vsplat (th : Nat) (f : RForm)
  /-- VEXT (R139): Extracts one element into a scalar. -/
  | vext (th : Nat) (f : RForm)
  /-- VINS (R139): Inserts a scalar into one element. -/
  | vins (th : Nat) (f : RForm)
  /-- VPERM (R139): Byte permute. -/
  | vperm (th : Nat) (f : RForm)
  /-- VREDADD (R139): Signed sum reduction into a scalar. -/
  | vredadd (th : Nat) (f : RForm)
  /-- VMOV (R139): Vector move. -/
  | vmov (th : Nat) (f : RForm)
  /-- VFADD (R140): Floating-point add. -/
  | vfadd (th : Nat) (f : RForm)
  /-- VFSUB (R140): Floating-point subtract. -/
  | vfsub (th : Nat) (f : RForm)
  /-- VFMUL (R140): Floating-point multiply. -/
  | vfmul (th : Nat) (f : RForm)
  /-- VFMA (R140): Fused multiply-add. -/
  | vfma (th : Nat) (f : RForm)
  /-- VFMIN (R140): Floating-point minimum. -/
  | vfmin (th : Nat) (f : RForm)
  /-- VFMAX (R140): Floating-point maximum. -/
  | vfmax (th : Nat) (f : RForm)
  /-- VFCLT (R140): Floating-point less-than compare. -/
  | vfclt (th : Nat) (f : RForm)
  /-- VFCEQ (R140): Floating-point equality compare. -/
  | vfceq (th : Nat) (f : RForm)
  /-- VFCVT (R141): Converts to a float format. -/
  | vfcvt (th : Nat) (f : RForm)
  /-- VFCVTI (R141): Converts a float to a saturated integer. -/
  | vfcvti (th : Nat) (f : RForm)
  /-- VFRCP (R140): Approximate reciprocal. -/
  | vfrcp (th : Nat) (f : RForm)
  /-- VFRSQ (R140): Approximate reciprocal square root. -/
  | vfrsq (th : Nat) (f : RForm)
  /-- LD_B (R142): Loads a signed byte. -/
  | ldB (th : Nat) (f : MForm)
  /-- LD_BU (R142): Loads an unsigned byte. -/
  | ldBu (th : Nat) (f : MForm)
  /-- LD_H (R142): Loads a signed halfword. -/
  | ldH (th : Nat) (f : MForm)
  /-- LD_HU (R142): Loads an unsigned halfword. -/
  | ldHu (th : Nat) (f : MForm)
  /-- LD_W (R142): Loads a signed word. -/
  | ldW (th : Nat) (f : MForm)
  /-- LD_WU (R142): Loads an unsigned word. -/
  | ldWu (th : Nat) (f : MForm)
  /-- LD_D (R142): Loads a doubleword. -/
  | ldD (th : Nat) (f : MForm)
  /-- ST_B (R142): Stores a byte. -/
  | stB (th : Nat) (f : MForm)
  /-- ST_H (R142): Stores a halfword. -/
  | stH (th : Nat) (f : MForm)
  /-- ST_W (R142): Stores a word. -/
  | stW (th : Nat) (f : MForm)
  /-- ST_D (R142): Stores a doubleword. -/
  | stD (th : Nat) (f : MForm)
  /-- VLD (R142): Predicated vector load. -/
  | vld (th : Nat) (f : VMForm)
  /-- VST (R142): Predicated vector store. -/
  | vst (th : Nat) (f : VMForm)
  /-- AADD (R143): Atomic add. -/
  | aadd (th : Nat) (f : RForm)
  /-- ASWAP (R143): Atomic swap. -/
  | aswap (th : Nat) (f : RForm)
  /-- ACAS (R143): Atomic compare and swap. -/
  | acas (th : Nat) (f : RForm)
  /-- AMAXU (R143): Atomic unsigned maximum. -/
  | amaxu (th : Nat) (f : RForm)
  /-- AMINU (R143): Atomic unsigned minimum. -/
  | aminu (th : Nat) (f : RForm)
  /-- BEQ (R137): Branch if equal. -/
  | beq (th : Nat) (f : BForm)
  /-- BNE (R137): Branch if not equal. -/
  | bne (th : Nat) (f : BForm)
  /-- BLT (R137): Branch if signed less. -/
  | blt (th : Nat) (f : BForm)
  /-- BGE (R137): Branch if signed greater or equal. -/
  | bge (th : Nat) (f : BForm)
  /-- BLTU (R137): Branch if unsigned less. -/
  | bltu (th : Nat) (f : BForm)
  /-- BGEU (R137): Branch if unsigned greater or equal. -/
  | bgeu (th : Nat) (f : BForm)
  /-- BPANY (R137): Branch if any predicate bit is set. -/
  | bpany (th : Nat) (f : BForm)
  /-- BPNONE (R137): Branch if no predicate bit is set. -/
  | bpnone (th : Nat) (f : BForm)
  /-- BPALL (R137): Branch if every predicate bit is set. -/
  | bpall (th : Nat) (f : BForm)
  /-- JAL (R137): Jump and link, pc-relative. -/
  | jal (th : Nat) (f : JForm)
  /-- JALR (R137): Jump and link to a register target. -/
  | jalr (th : Nat) (f : IForm)
  /-- SIGNAL (R147): Adds to a sync counter with the thread's epoch, once earlier stores are visible. -/
  | signal (th : Nat) (f : SForm)
  /-- WAIT (R147): Holds the thread until a counter reaches its target. -/
  | wait (th : Nat) (f : SForm)
  /-- SRD (R147): Reads a sync counter's value. -/
  | srd (th : Nat) (f : SForm)
  /-- EPOCH_GET (R148): Reads the current epoch of a deck. -/
  | epochGet (th : Nat) (f : RForm)
  /-- EPOCH_SET (R148): Sets the thread's placement epoch ep. -/
  | epochSet (th : Nat) (f : RForm)
  /-- TBIND (R149): Copies and checks a descriptor into a handle. -/
  | tbind (th : Nat) (f : IForm)
  /-- TADV (R149): Advances a handle's base address. -/
  | tadv (th : Nat) (f : IForm)
  /-- TREL (R133): Unbinds a handle. -/
  | trel (th : Nat) (f : IForm)
  /-- BALLOC (R150): Allocates a boom buffer, waiting until one is granted. -/
  | balloc (th : Nat) (f : RForm)
  /-- BALLOCN (R150): Allocates a boom buffer without waiting, returning 0 when none is free. -/
  | ballocn (th : Nat) (f : RForm)
  /-- BFREE (R338): Returns a boom buffer after the pointer checks; the freed buffer may go to the oldest waiter. -/
  | bfree (th : Nat) (f : RForm)
  /-- MMA_MXI8 (R199): Matrix multiply-accumulate on MXINT8 operands. -/
  | mmaMxi8 (t : TStep)
  /-- MMA_E4M3 (R199): Matrix multiply-accumulate on MXFP8 E4M3 operands. -/
  | mmaE4m3 (t : TStep)
  /-- MMA_E5M2 (R199): Matrix multiply-accumulate on MXFP8 E5M2 operands. -/
  | mmaE5m2 (t : TStep)
  /-- MMA_E3M2 (R199): Matrix multiply-accumulate on MXFP6 E3M2 operands. -/
  | mmaE3m2 (t : TStep)
  /-- MMA_E2M3 (R199): Matrix multiply-accumulate on MXFP6 E2M3 operands. -/
  | mmaE2m3 (t : TStep)
  /-- MMA_E2M1 (R199): Matrix multiply-accumulate on MXFP4 operands. -/
  | mmaE2m1 (t : TStep)
  /-- MMA_I8 (R203): Integer matrix multiply-accumulate into INT32. -/
  | mmaI8 (t : TStep)
  /-- MMA_BF16 (R199): Matrix multiply-accumulate on BF16 operands. -/
  | mmaBf16 (t : TStep)
  /-- MMA_F16 (R199): Matrix multiply-accumulate on FP16 operands. -/
  | mmaF16 (t : TStep)
  /-- MMA_ZERO (R195): Zeroes an accumulator bank and claims it for the job. -/
  | mmaZero (t : TStep)
  /-- MMA_STORE (R211): Converts an accumulator bank and stores it through a descriptor. -/
  | mmaStore (t : TStep)
  /-- WIN_CONV (R222): Windowed convolution. -/
  | winConv (t : TStep)
  /-- WIN_MAX (R225): Max pooling. -/
  | winMax (t : TStep)
  /-- WIN_AVG (R225): Average pooling. -/
  | winAvg (t : TStep)
  /-- WIN_MIN (R225): Min pooling. -/
  | winMin (t : TStep)
  /-- WIN_SUM (R225): Sum pooling. -/
  | winSum (t : TStep)
  /-- RSMP (R228): Crop and resample with colour stage and augmentation. -/
  | rsmp (t : TStep)
  /-- WARP (R230): Affine warp with colour stage and augmentation. -/
  | warp (t : TStep)
  /-- SKID (R177): Copies a tensor element by element in traversal order. -/
  | skid (t : TStep)
  /-- GATHER (R178): Gathers table rows by index. -/
  | gather (t : TStep)
  /-- SCATTER (R179): Scatters source rows to indexed table positions. -/
  | scatter (t : TStep)
  /-- TAKE_FRAME (R276): Takes a whole frame plane or statistics record of a camera stream. -/
  | takeFrame (t : TStep)
  /-- TAKE_REGION (R276): Takes a region of a camera frame plane. -/
  | takeRegion (t : TStep)
  /-- TAKE_WAIT_TIMEOUT (R276): A TAKE waiting for a frame passes WAIT_US and ends with DROPPED_STALE and NOFRAME. -/
  | takeWaitTimeout (id : Nat)
  /-- CODEC_OPEN (R280): Opens a codec session or record stream, binding it to the job's context. -/
  | codecOpen (t : TStep)
  /-- CODEC_CLOSE (R282): Closes a session or record stream and returns its pool buffers. -/
  | codecClose (t : TStep)
  /-- DECODE (R297): Decodes one access unit, temporal unit or JPEG image on a session. -/
  | decode (t : TStep)
  /-- ENCODE (R294): Encodes one picture on a session under rate control and the byte cap. -/
  | encode (t : TStep)
  /-- ENCODE_SLICE_DONE (R293): An encoded slice is complete; the slice table entry is written and the slice counter is signalled. -/
  | encodeSliceDone (id : Nat) (off : Nat)
  /-- RNEXT (R301): Reads, verifies and delivers the next record, optionally decoding it on a session. -/
  | rnext (t : TStep)
  /-- WRAP (R303): Wraps a payload in a record envelope with the next SEQ. -/
  | wrap (t : TStep)
  /-- CODEC_PIPE_START (R286): A queued codec command is granted a pipe of its kind and begins. -/
  | codecPipeStart (id : Nat)
  /-- LOGRD (R314): Reads a range of a log stream from flash. -/
  | logrd (t : TStep)
  /-- LOGWR (R313): Appends bytes to a log stream. -/
  | logwr (t : TStep)
  /-- SLOT_PLACE (R346): Places a sample into a deck slot, checked against Table 12.6. -/
  | slotPlace (t : TStep)
  /-- SLOT_VOID (R346): Voids a deck slot with a status. -/
  | slotVoid (t : TStep)
  /-- COMMAND_ACCEPT (R156): A unit accepts a queued tensor command and makes its acceptance checks. -/
  | commandAccept (id : Nat)
  /-- COMMAND_END (R153): A tensor command ends; it writes the result word, makes its writes visible, records tst and signals its counter. -/
  | commandEnd (id : Nat)
  /-- CAM_PORT_CFG_WRITE (R254): A CAM_PORT_CFG write enables or disables a port and sets PHY and LANES while it is disabled. -/
  | camPortCfgWrite (p : Nat) (data : Word)
  /-- CAM_PORT_CLR (R254): CLR clears the port counters and sets LB_PEAK to LB_USED. -/
  | camPortClr (p : Nat) (data : Word)
  /-- CAM_STREAM_ENABLE (R257): Setting EN enables a stream, or is refused with a REFUSE code, and applies the seeds. -/
  | camStreamEnable (sn : Nat) (data : Word)
  /-- CAM_STREAM_DISABLE (R257): Clearing EN discards the stream's incomplete frames and frees their lines and buffers. -/
  | camStreamDisable (sn : Nat) (data : Word)
  /-- CAM_STREAM_COMMIT (R258): A COMMIT write requests that the shadow configuration be loaded at the next admission check. -/
  | camStreamCommit (sn : Nat) (data : Word)
  /-- CAM_TABLE_WRITE (R268): A write through the pipeline-table window stores a value, and is ignored for the active bank of an enabled stream. -/
  | camTableWrite (off : BitVec 20) (data : Word)
  /-- CAM_FRAME_START (R261): A Frame Start packet stamps a frame, applies any pending commit and makes the admission check. -/
  | camFrameStart (p : Nat) (vc : Nat) (wc : Nat)
  /-- CAM_FRAME_ADMIT (R261): A waiting frame is admitted when its conditions change in its favour, reserving its boom buffers. -/
  | camFrameAdmit (sn : Nat)
  /-- CAM_FRAME_STALE_DROP (R261): A waiting frame's age exceeds STALE_US and it is dropped whole with DROPPED_STALE. -/
  | camFrameStaleDrop (sn : Nat)
  /-- CAM_IMAGE_LINE (R260): An image line packet arrives and is stored in the line buffer, or overflow drops its frame. -/
  | camImageLine (p : Nat) (vc : Nat) (dt : Nat) (bytes : List Byte)
  /-- CAM_FRAME_END (R253): A Frame End packet ends a frame, checks it for corruption and compares frame numbers. -/
  | camFrameEnd (p : Nat) (vc : Nat) (wc : Nat)
  /-- CAM_PACKET_DISCARD (R251): A packet on an unbound virtual channel, or of an unsupported type, is discarded and counted. -/
  | camPacketDiscard (p : Nat) (vc : Nat) (dt : Nat)
  /-- CAM_HEADER_ERROR (R252): A packet header or checksum error is corrected or counted, and may make frames corrupt. -/
  | camHeaderError (p : Nat) (kind : Nat) (vc : Option Nat)
  /-- CAM_SOT_ERROR (R69): A start-of-transmission error on a lane is counted and corrupts the packet in progress. -/
  | camSotError (p : Nat) (inPacket : Bool) (vc : Option Nat)
  /-- FE_LINE_PICK (R263): A free pixel lane takes a ready line by deficit round robin. -/
  | feLinePick (lane : Nat)
  /-- FE_LINE_DONE (R265): A line completes the pixel pipeline; its output and statistics are written and buffer lines are freed. -/
  | feLineDone (lane : Nat)
  /-- PIXEL_LANE_FAULT (R264): A lane fault discards a line's output for reprocessing; a second fault takes the lane out of service and brings in the spare. -/
  | pixelLaneFault (lane : Nat)
  /-- LS_MOUNT (R325): Mounts the log store: training, anchors, checkpoint, journal replay and frontiers, then raises write protect. -/
  | lsMount (scan : NandScan)
  /-- LS_UNMOUNT (R325): Unmounts cleanly, with a checkpoint and CLEAN anchors, and lowers write protect. -/
  | lsUnmount
  /-- LS_FORMAT (R325): Formats the store with new tables, spares and STORE_ID. -/
  | lsFormat (scan : NandScan)
  /-- LS_CHECKPOINT (R325): Writes a checkpoint and anchors on command. -/
  | lsCheckpoint
  /-- LS_CREATE (R325): Creates the selected log stream with its policy. -/
  | lsCreate
  /-- LS_DELETE (R325): Deletes a stream, marking its segments DIRTY. -/
  | lsDelete
  /-- LS_TRIM (R325): Advances a stream's START and frees whole groups below it. -/
  | lsTrim
  /-- LS_CMD_DONE (R325): A log-store command ends; its status appears, BUSY clears and the LS_CMD cause is set. -/
  | lsCmdDone (us : Nat)
  /-- LS_FLUSH_TIMEOUT (R313): A stripe unit's first byte has waited FLUSH_US and the unit is programmed. -/
  | lsFlushTimeout (sn : Nat)
  /-- STRIPE_UNIT_PROGRAM (R313): A full or flushed stripe unit is programmed to flash. -/
  | stripeUnitProgram (sn : Nat)
  /-- NAND_PROGRAM_DONE (R313): A NAND program completes; durability and END advance, waiting LOGWRs may signal, and failures are redone or retired. -/
  | nandProgramDone (op : Nat) (ok : Bool)
  /-- NAND_ERASE_DONE (R321): A NAND erase completes, or reports failure and is retried or the block retired. -/
  | nandEraseDone (op : Nat) (ok : Bool)
  /-- NAND_READ_DONE (R317): A page read completes; its codewords are decoded, with read retry and uncorrectable handling. -/
  | nandReadDone (id : Nat) (got : PageRead)
  /-- NAND_BUS_TIMEOUT (R318): A target gives no ready or status within 10 ms; the operation is retried once, then the target goes offline. -/
  | nandBusTimeout (op : Nat)
  /-- LS_AUTO_CHECKPOINT (R311): The journal reaches 65,536 records since the last checkpoint, and a checkpoint is taken. -/
  | lsAutoCheckpoint
  /-- LS_AGE_CHECK (R320): A periodic retention check schedules refresh reclaims of aged segments. -/
  | lsAgeCheck
  /-- RECLAIM_START (R322): A due reclaim begins with a durable RCL_BEGIN. -/
  | reclaimStart (dst : Nat)
  /-- RECLAIM_COMMIT (R322): After the copy, RCL_COMMIT is made durable and the destination replaces the source. -/
  | reclaimCommit
  /-- RECLAIM_DONE (R322): The source is erased and the reclaim ends; LOGWRs waiting on it retry. -/
  | reclaimDone
  /-- BOOM_CFG_WRITE (R335): A BOOM_CFG write defines a boom after its checks, or is ignored with CFG_ERR, or rebuilds it in maintenance mode. -/
  | boomCfgWrite (k : Nat) (data : Word)
  /-- BOOM_WATERMARK_WRITE (R337): A WARN, HOLD or CRIT write is applied when the order holds, and ignored with CFG_ERR otherwise. -/
  | boomWatermarkWrite (off : BitVec 20) (data : Word)
  /-- BOOM_FREE_READ (R339): A read of BOOM_FREE captures IN_USE for the next BOOM_INUSE read. -/
  | boomFreeRead (k : Nat)
  /-- DECK_CHANNEL_ENABLE (R345): Setting DK_CTRL.EN reads and checks the destination descriptor; on success EPOCH advances and deck 0 opens, otherwise REFUSED is set. -/
  | deckChannelEnable (c : Nat) (data : Word)
  /-- DECK_CHANNEL_DISABLE (R345): Clearing DK_CTRL.EN discards the current deck and ends its waiting SLOTs with ABORTED_TEARDOWN. -/
  | deckChannelDisable (c : Nat) (data : Word)
  /-- DECK_ADVANCE (R355): ADVANCE increments the epoch, reopens undelivered slots and refuses copies in progress and waiting SLOTs. -/
  | deckAdvance (c : Nat) (data : Word)
  /-- DK_RELEASE (R350): DK_RELEASE frees deck buffers, which may let the next deck open. -/
  | dkRelease (c : Nat) (data : Word)
  /-- DECK_OPEN (R350): The next deck opens once the previous one has closed, the space is empty and a deck buffer is free. -/
  | deckOpen (c : Nat)
  /-- SLOT_PARK_RECHECK (R347): A parked SLOT is checked again when the channel's deck, window or epoch changes. -/
  | slotParkRecheck (id : Nat)
  /-- SLOT_COPY_DONE (R348): A placement copy into the slot's place completes and the slot is placed. -/
  | slotCopyDone (id : Nat) (ticks : Nat)
  /-- SLOT_DELIVER (R349): The closed head slot is delivered in order and the window advances. `most`: line writes that this step makes at most; 0 for no bound. -/
  | slotDeliver (c : Nat) (most : Nat)
  /-- DECK_CLOSE (R350): A deck closes; deliveries are acknowledged, the info block is written in order, and INFLIGHT and DECK advance. `most`: line writes that this step makes at most; 0 for no bound. -/
  | deckClose (c : Nat) (most : Nat)
  /-- STRAGGLER_VOID (R353): The open head slot exceeds the straggler limit and is voided with VOID_STRAGGLER. -/
  | stragglerVoid (c : Nat) (age : Nat)
  /-- FLUME_ENABLE (R358): Setting FL_CFG.EN starts the flume port with its node settings. -/
  | flumeEnable (data : Word)
  /-- FLUME_DISABLE (R376): Clearing FL_CFG.EN aborts own flows, ends receive decks and discards addressed packets until EN clears. -/
  | flumeDisable (data : Word)
  /-- LINK_TRAIN (R363): A link starts training on enable, bypass change, lasting fault, error code or LLC silence. -/
  | linkTrain (d : Nat)
  /-- LINK_TRAINED (R363): Training completes, or fails with three bad wires and the link stays down; spare-wire fields are updated and ring events reported. `partner`: the partner's node, plus 16 times the packets in its input buffers. -/
  | linkTrained (d : Nat) (badOut : Nat) (badIn : Nat) (partner : Nat)
  /-- LLC_SILENCE_TIMEOUT (R363): A link sees no valid LLC byte for 1 µs and retrains. -/
  | llcSilenceTimeout (d : Nat)
  /-- LINK_PARITY_ERROR (R361): A parity error discards the packet in progress and sends a replay request; a second failure retrains. -/
  | linkParityError (d : Nat)
  /-- LLC_CREDIT_RETURN (R361): A link-credit LLC code returns input-buffer credits. -/
  | llcCreditReturn (d : Nat) (v : Nat)
  /-- LLC_LINK_ACK (R361): A link acknowledgement releases replay copies. -/
  | llcLinkAck (d : Nat) (v : Nat)
  /-- LLC_REPLAY_REQUEST (R361): A replay request resends packets from the given sequence. `v`: the sequence, plus 64 times the packets in the receiver's input buffers, which the exchange states. -/
  | llcReplayRequest (d : Nat) (v : Nat)
  /-- LLC_DELIVERY_ACK (R361): A delivery acknowledgement is relayed, or at the source releases packet slots and may free a flow. -/
  | llcDeliveryAck (d : Nat) (flow : Nat) (v : Nat) (node : Nat)
  /-- LLC_LINK_ERROR (R363): An unknown LLC code makes the link retrain. -/
  | llcLinkError (d : Nat) (v : Nat)
  /-- FLUME_PACKET_SEND (R367): A node injects a packet when bucket, allowance and link arbitration permit. -/
  | flumePacketSend (n : Nat) (cycles : Nat)
  /-- FLUME_FORWARD (R368): A passing packet is forwarded towards its destination. -/
  | flumeForward (d : Nat) (pk : Packet)
  /-- FLUME_DATA_PACKET (R370): A data packet for this node lands in the receive area or a receive port, or is discarded and counted. -/
  | flumeDataPacket (d : Nat) (pk : Packet)
  /-- FLUME_OPEN (R365): A received OPEN control packet starts a flow's deck at its receivers. -/
  | flumeOpen (d : Nat) (pk : Packet)
  /-- FLUME_DECK_END (R371): A received DECK_END ends the deck and leads to the receive record. -/
  | flumeDeckEnd (d : Nat) (pk : Packet)
  /-- FLUME_ABORT (R375): A received ABORT ends the deck with its status in the receive record. -/
  | flumeAbort (d : Nat) (pk : Packet)
  /-- FLUME_GAP (R374): A received GAP discards the rest of the deck and records DETACHED. -/
  | flumeGap (d : Nat) (pk : Packet)
  /-- FLUME_REPORT (R377): A REPORT reaches the ring manager, which broadcasts it as a NOTICE. -/
  | flumeReport (d : Nat) (pk : Packet)
  /-- FLUME_NOTICE (R377): A NOTICE is recorded in FL_NOTICE and the notice cause is set. -/
  | flumeNotice (d : Nat) (pk : Packet)
  /-- FLOW_ACQUIRE (R372): A deck's first delivery takes FLOWS flows once that many are free. -/
  | flowAcquire (c : Nat)
  /-- FLOW_ACK_TIMEOUT (R375): No acknowledgement arrives for FL_ACK_TO while packets are outstanding; the flow aborts. -/
  | flowAckTimeout (n : Nat)
  /-- RX_RECORD_WRITE (R371): A receive port writes its record when the deck ends and sets the RX cause. `most`: line writes that this step makes at most; 0 for no bound. -/
  | rxRecordWrite (r : Nat) (most : Nat)
  /-- FL_RXP_REL (R371): Releases receive deck buffers so the port can take its next deck. -/
  | flRxpRel (r : Nat) (data : Word)
  /-- SQ_DOORBELL (R389): A doorbell starts a scan of the submission queue from FETCH. -/
  | sqDoorbell (n : Nat) (data : Word)
  /-- SQ_ENTRY_FETCH (R393): A fetched entry with OWN = 1 is checked and cached, or stops the queue as malformed. -/
  | sqEntryFetch (n : Nat) (code : Nat)
  /-- QUEUE_STOP (R393): Once earlier entries have started, the queue stops on a malformed entry and writes a MALFORMED completion. -/
  | queueStop (n : Nat)
  /-- SQ_INVALIDATE (R391): Discards cached unstarted entries, sets FETCH to HEAD and starts a scan. -/
  | sqInvalidate (n : Nat) (data : Word)
  /-- SQ_ENABLE (R381): Setting EN starts a queue when it is off and its configuration is valid. -/
  | sqEnable (n : Nat) (data : Word)
  /-- SQ_DISABLE (R400): Clearing EN drains the queue, discarding unstarted cached entries. -/
  | sqDisable (n : Nat) (data : Word)
  /-- SQ_RESUME (R394): RESUME restarts a stopped queue at the stopped entry. -/
  | sqResume (n : Nat) (data : Word)
  /-- SQ_PAUSE_WRITE (R392): Setting or clearing PAUSE holds or releases job starts. -/
  | sqPauseWrite (n : Nat) (data : Word)
  /-- QUEUE_OFF (R400): A draining queue reaches OFF when its jobs are done and SQ_OFF is set. -/
  | queueOff (n : Nat)
  /-- ENTRY_NOP (R384): A NOP entry completes at its start with DONE. -/
  | entryNop (n : Nat)
  /-- ENTRY_RUN (R384): A RUN entry starts the job of PROG. -/
  | entryRun (n : Nat)
  /-- ENTRY_FENCE (R384): A FENCE entry starts once earlier jobs of its queue have completed, then completes with DONE. -/
  | entryFence (n : Nat)
  /-- COMPLETION_WRITE (R397): A completion record is written to its ring; TAIL advances and SIG and moderation act. -/
  | completionWrite (r : Nat) (code : Nat)
  /-- CR_HEAD_WRITE (R398): A CR_HEAD write returns ring credits, and a bad value is counted in BADHEAD. -/
  | crHeadWrite (r : Nat) (data : Word)
  /-- CR_SIZE_WRITE (R398): A CR_SIZE write resizes an idle ring and resets HEAD, TAIL and FREE. -/
  | crSizeWrite (r : Nat) (data : Word)
  /-- CR_IRQ_TIMER (R399): The earliest unsignalled completion has waited TIME_US, and CRING is set. -/
  | crIrqTimer (r : Nat)
  /-- INT_CAUSE_CLEAR (R405): A write of 1 to cause bits clears them and updates the summary and fk_irq. -/
  | intCauseClear (b : Nat) (data : Word)
  /-- INT_TEST (R405): A write to INT_TEST sets cause bits. -/
  | intTest (b : Nat) (data : Word)
  /-- FAULT_DETECTED (R409): A hardware check fails; the operation is repeated once, and the fault is classed transient or lasting, logged and acted on. -/
  | faultDetected (f : FaultInfo)
  /-- STAGE_STALL (R410): A stage produces no output for 10 µs with input present, which is a lasting fault of its unit. -/
  | stageStall (f : FaultInfo)
  /-- LEDGER_BREACH (R433): A ledger sum differs from its total; BREACH is set and a lasting record is written without reset. -/
  | ledgerBreach (i : Nat)
  /-- LDG_SEL_WRITE (R433): Selects a ledger and captures its IN_USE, FREE and TOTAL at one instant. -/
  | ldgSelWrite (data : Word)
  /-- RST_THREAD (R418): A software request for a thread-domain reset. -/
  | rstThread (data : Word)
  /-- RST_ENGINE (R418): A software request for an engine or core domain reset. -/
  | rstEngine (data : Word)
  /-- RST_STAND (R418): A software request for a stand reset, without substitution. -/
  | rstStand (data : Word)
  /-- RST_SUBSYSTEM (R418): A software request for an Intake, Shaping or Movement subsystem reset. -/
  | rstSubsystem (data : Word)
  /-- RST_BLOCK (R418): A software request for a block-domain reset. -/
  | rstBlock (data : Word)
  /-- DOMAIN_RESET_END (R419): A reset smaller than the block ends; the fence lifts, DOMAIN_END is set and NODE_RECOVERED is reported. -/
  | domainResetEnd (us : Nat)
  /-- HANG_EVALUATE (R424): The hang detector evaluates whether the queues form a hung picture. -/
  | hangEvaluate (us : Nat)
  /-- HANG_FIRE (R425): The hung picture has held stable for 1 ms; HUNG is set, FIRES increments and a dump may start. -/
  | hangFire
  /-- DUMP_START (R428): A dump trigger starts the observer chain, or increments MISSED when a dump is held or busy. -/
  | dumpStart (k : Nat)
  /-- OBS_PORT_TIMEOUT (R427): An observer port does not answer within 2 µs and gets a NO_ANSWER record. -/
  | obsPortTimeout (k : Nat)
  /-- DUMP_COMPLETE (R427): The dump completes; VALID is set and the DUMP cause is raised. -/
  | dumpComplete (ticks : Nat)
  /-- TLY_CFG_WRITE (R438): Configures or stops a tally counter, and an invalid write sets CFG_ERR. -/
  | tlyCfgWrite (i : Nat) (data : Word)
  /-- TLY_FREEZE_WRITE (R442): Setting or clearing FREEZE stops or restarts every counter at one instant. -/
  | tlyFreezeWrite (data : Word)
  /-- TLY_CLR_ALL (R442): Clears every count and TLY_WRAP bit at one instant. -/
  | tlyClrAll (data : Word)
  /-- TLY_WIN_WRITE (R445): A TLY_WIN write configures the windows and discards the window in progress. -/
  | tlyWinWrite (data : Word)
  /-- TLY_CLR_PEAK (R445): Sets every bandwidth PEAK to 0. -/
  | tlyClrPeak (data : Word)
  /-- TLY_WINDOW_END (R446): A bandwidth window ends; RATE and PEAK update and the WINDOW cause is set. -/
  | tlyWindowEnd
  /-- VDD_AO_IN_RANGE (R4): VDD_AO enters its range; the identity registers begin to answer, and the bypass is closed from then on. -/
  | vddAoInRange
  /-- MEM_REQUEST_TRANSFER (R48): A presented memory read or write request transfers at an edge where the memory side holds rq_rdy or wq_rdy high, and its tag becomes in use. -/
  | memRequestTransfer (r : MemReq)
  /-- NAND_IDLE_LIMIT (R54): In entry to block-domain reset, 10 ms after step 1, the NAND wait of Table 2.7 step 4 ends even though targets have not reported ready. -/
  | nandIdleLimit
  deriving DecidableEq, Repr

end Sys2Proof
end

