-- ==== Sys2Proof/Decode.lean ====
section
/-! DEFINITION. Commands from words. The opcode table gives no row any bits (its rows carry no fields), so no word spells a command. -/

namespace Sys2Proof

/-- The command that a word of the table spells: none, since the table gives no row bits (DEDUCED, log entry 8). -/
def decodeTableWord (_nbits _w : Nat) : Option Instr := none

end Sys2Proof
end

