-- ==== Sys2Proof/Coded.lean ====
section
/-! DEFINITION. The shape of what the coding standards of Table 10.3 make of a string: what it declares, its pictures, their references and the pieces and blocks of their data. The standards lie outside the spec, so the functions that read a string by them have no body (Config). (DESIGN CHOICE, log entry 88) -/

namespace Sys2Proof.Machine

/-- A profile, format or tool that Table 10.3 names and that a stream can declare. -/
inductive Tool where
  | main | main10 | rangeExtensions | screenContent | multilayer | chroma422 | chroma444
  | av1Main | av1High | av1Professional | monochrome | lengthDelimited | largeScaleTile | sizeChange | superres
  | baseline | extended | progressive | lossless | hierarchical | arithmetic | fourComponents | dnl
  | otherSampling | otherDepth
  deriving DecidableEq, Repr, Inhabited

/-- What a picture is: an HEVC IDR, CRA or RASL picture, an AV1 key frame, a picture of another kind, or a
show_existing_frame of an AV1 slot. -/
inductive PicKind where
  | idr | cra | rasl | key | other
  | existing (slot : Nat)
  deriving DecidableEq, Repr, Inhabited

/-- The references of a picture: the HEVC reference picture set by order count (kept as short-term, kept as long-term,
and those of them that the picture itself uses), or the AV1 slots that it refreshes and those that it uses. -/
inductive RefUse where
  | rps (short long uses : List Int)
  | slots (refresh uses : List Nat)
  deriving DecidableEq, Repr, Inhabited

/-- A coding block (a CTU, a superblock, an MCU) whose data the string holds: where they begin and end, the bins,
symbols or bits that it uses, the place of a syntax element outside its range, and the place where the budget of R297
would run out. -/
structure CodedBlock where
  first : Nat
  fin : Nat
  bins : Nat
  wrong : Option Nat
  spent : Nat
  deriving DecidableEq, Repr, Inhabited

/-- A slice segment, a tile or a restart interval: its header and whether that can be read, whether it is a dependent
segment, the picture addresses of the blocks that it holds in coding order, those of them whose data the string holds,
and entry 0 of its reference list 0 (an order count or a slot). -/
structure CodedPiece where
  head : Nat
  headEnd : Nat
  headOk : Bool
  dependent : Bool
  places : List Nat
  blocks : List CodedBlock
  ref0 : Option Int
  deriving DecidableEq, Repr, Inhabited

/-- A picture: whether the parameter sets or the sequence header that it needs are there and undamaged, where those that
the string itself holds lie (offset, bytes), its first slice or frame header, its size, the bits of a sample, the width
and height of its coding blocks, what it is, whether it is shown, its order key and order count, its references, whether film
grain applies to it, and its pieces. -/
structure CodedPic where
  parameters : Bool
  sets : List (Nat × Nat)
  head : Nat
  headEnd : Nat
  headOk : Bool
  width : Nat
  height : Nat
  depth : Nat
  mono : Bool
  blockW : Nat
  blockH : Nat
  kind : PicKind
  shown : Bool
  order : Nat
  poc : Int
  refs : RefUse
  grain : Bool
  pieces : List CodedPiece
  deriving DecidableEq, Repr, Inhabited

/-- A string: what it declares, its pictures in decode order, and what the standard's decoding process keeps of it for
the strings after it (parameter sets, sequence header, order counts, saved contexts), as a number. -/
structure CodedUnit where
  declares : List Tool
  pics : List CodedPic
  kept : Nat
  deriving DecidableEq, Repr, Inhabited

/-- What the encoder codes a CTU or superblock from (R292): the open block's and the parameter block's words, whether
the picture is IDR, the picture's number, the QP, the CTU, what the coder has made so far, the source samples, the
motion vectors found, and the samples of its references. -/
structure CtuWork where
  cfg : BitVec 512
  pb : BitVec 512
  idr : Bool
  picture : Nat
  qp : Nat
  ctu : Nat
  coder : Nat
  source : List Nat
  vectors : List (Int × Int)
  refs : List (List Byte)
  deriving DecidableEq, Repr, Inhabited

/-- A coded CTU: its bytes, and what the coder has made after it. -/
structure CtuCode where
  bytes : List Byte
  coder : Nat
  deriving DecidableEq, Repr, Inhabited

end Sys2Proof.Machine
end

