-- ==== Sys2Proof/Config.lean ====
section
/-! DEFINITION. What the spec leaves open. A free value is an opaque constant applied to a counter that State holds: nothing in Lean can evaluate it. A function of the standards outside the spec is an opaque constant applied to what it may depend on. -/

namespace Sys2Proof.Config

open Sys2Proof.Machine

/-- The stream of free values: the n-th value that the spec leaves open, as a number. (DESIGN CHOICE, log
entry 2) -/
opaque freeNat : Nat → Nat

/-! Decoding (Table 10.3). `kept` is what the session keeps of the strings before. (DESIGN CHOICE, log entry 88) -/

/-- An HEVC access unit, by its NAL units: the offset of each in the string, and its bytes. -/
opaque hevc (kept : Nat) (units : List (Nat × List Byte)) : CodedUnit

/-- An AV1 temporal unit. -/
opaque av1 (kept : Nat) (string : List Byte) : CodedUnit

/-- The restart intervals of a JPEG image's scan. -/
opaque jpegScan (string : List Byte) : List CodedPiece

/-- A sample of picture `k` of a string: its value outside concealed areas, from its references' buffers. Plane 0 is
luma, 1 and 2 are chroma. -/
opaque sample (kept : Nat) (string : List Byte) (k : Nat) (refs : List (List Byte)) (concealed : List Nat)
  (plane x y : Nat) : Nat

/-- What a decoded picture's AUX buffer holds. -/
opaque motion (kept : Nat) (string : List Byte) (k : Nat) (refs : List (List Byte)) (i : Nat) : Byte

/-- A sample of the output copy with film grain. -/
opaque grain (kept : Nat) (string : List Byte) (k plane x y v : Nat) : Nat

/-- The 448 LDPC parity bytes of a codeword's data and metadata (R308): the code is not given. (DESIGN CHOICE, log
entry 92) -/
opaque ldpc (bytes : List Byte) : List Byte

/-- A padding byte of a codeword, by its metadata (Table 11.2). (DESIGN CHOICE, log entry 92) -/
opaque padding (info : List Byte) (i : Nat) : Byte

/-- GSEQ, OFF and VALID of a codeword that holds no stream's data, where Table 11.2 leaves them open: by its kind, its stamp and
the field. (DESIGN CHOICE, log entry 92) -/
opaque systemField (kind stamp field : Nat) : Nat

/-! Encoding (R292). (DESIGN CHOICE, log entry 89) -/

/-- SATD of a block of differences. -/
opaque satd (codec : Nat) (differences : List Int) : Nat
/-- λ of a QP. -/
opaque lambda (codec qp : Nat) : Nat
/-- The bits of a motion vector, in quarter samples. -/
opaque vectorBits (codec : Nat) (vector : Int × Int) : Nat
/-- The standard's interpolation: the value at a position in quarter samples of a plane. -/
opaque interpolate (codec : Nat) (plane : Int → Int → Nat) (x y : Int) : Nat
/-- The access-unit headers, the header of a slice, and the end of the picture. -/
opaque unitHead (cfg pb : BitVec 512) (idr : Bool) (picture : Nat) : List Byte
opaque sliceHead (cfg pb : BitVec 512) (idr : Bool) (picture slice coder : Nat) : List Byte
opaque pictureEnd (cfg : BitVec 512) (coder : Nat) : List Byte
/-- A CTU coded normally: partition and modes chosen by the cost of R292. -/
opaque codeCtu (w : CtuWork) : CtuCode
/-- A minimal CTU (R295). -/
opaque minimalCtu (w : CtuWork) : CtuCode
/-- A sample of the reconstruction, by what the coder has made of the whole picture. -/
opaque reconstruct (cfg : BitVec 512) (coder plane x y : Nat) : Nat

end Sys2Proof.Config
end

