-- ==== Sys2Proof/Machine/State.lean ====
section
/-! DEFINITION. The state of the block: the queue of waiting commands beside the block itself, plain data throughout. Registers are held as their stored 32-bit words under their window offsets (SMap with the register's reset value as default, Machine/Regs.lean); what a register reports of a unit's state is computed when it is read. -/

namespace Sys2Proof.Machine

/-- Where the block domain stands between its resets (Tables 2.6 and 2.7). -/
inductive Phase where
  /-- steps 1 to 4 of Table 2.7 -/
  | entering
  /-- step 5 done: state reset, waiting for the causes to clear -/
  | held
  /-- out of reset, self-test running (Table 2.6 step 7) -/
  | selfTest
  /-- BLOCK_READY is 1 -/
  | ready
  deriving DecidableEq, Repr

/-- The input pins that decide resets and supplies (R49 to R54, R74), whether the clocks of the register port and of the
flume run (R47), and `fk_irq`. (DEDUCED, log entry 11) -/
structure Pins where
  vddAo : Bool
  vddFk : Bool
  coldN : Bool
  warmN : Bool
  pwrok : Bool
  pfailN : Bool
  hclkOn : Bool
  fclkOn : Bool
  irq : Bool
  deriving DecidableEq, Repr

/-- One access of the register port (R64). -/
structure Access where
  write : Bool
  off : BitVec 20
  data : Word
  deriving DecidableEq, Repr

/-- The register port: the last acknowledge, the accesses that wait while `fk_hclk` is stopped (R452), and the high
halves captured for the next `_HI` read, by the offset of the `_HI` register (R16). (DEDUCED, log entry 11) -/
structure Bus where
  ack : Bool
  rdata : Word
  err : Bool
  held : List Access
  cap : SMap Word
  deriving DecidableEq, Repr

/-- The test access port on VDD_AO (R67, R431): instruction, the observer address and the loaded data word. -/
structure Tap where
  ir : Byte
  addr : BitVec 16
  data : Word
  deriving DecidableEq, Repr

/-- A dump in progress (R426 to R430): what triggered it, the timebase at its start, the records that got no answer. -/
structure DumpRun where
  trigger : Nat
  time : Dword
  noAns : List Nat
  heads : List Word
  deriving DecidableEq, Repr

/-- A domain reset smaller than the block that is in progress (R414 to R421). -/
structure DomainReset where
  domain : Nat
  unit : Nat
  subst : Bool
  lastingFault : Bool
  deriving DecidableEq, Repr

/-- The control island on VDD_AO (Table 1.1): registers, straps, reset and spare management, the observer chain's
dump, the TAP, and the fault counts of the units. `rst` lists the domain resets in progress, oldest first; `donors` gives
the donor core that carries a logical core; `sampled` says that the timebase has been sampled since cold reset. -/
structure Ao where
  regs : SMap Word
  straps : Straps
  phase : Phase
  nandWaitOver : Bool
  controlReset : Bool
  tap : Tap
  dump : SMap Byte
  dumpRun : Option DumpRun
  rst : List DomainReset
  lasting : SMap Nat
  out : SMap Bool
  repairs : SMap Nat
  fenced : SMap Bool
  donors : SMap Nat
  lanes : BitVec 9
  lanesOut : Nat
  paceSkip : Bool
  sampled : Bool
  deriving DecidableEq, Repr

/-- One trigger output (R71, R72): its level, the scheduled target, the width in force for the pulse, and whether an edge
has passed since its rise. -/
structure Trig where
  level : Bool
  target : Option Nat
  width : Nat
  armed : Bool
  deriving DecidableEq, Repr

/-- A memory tag in use (R59, R63): the request, whether it is the retry, and its serial number. -/
structure MemTag where
  req : MemReq
  chan : Nat
  retry : Bool
  serial : Nat
  deriving DecidableEq, Repr

/-- A line request that is still to be made: the one retry of a line (R63), or a write that its agent has put together. -/
structure Retry where
  req : MemReq
  serial : Nat
  deriving DecidableEq, Repr

/-- A sync counter (R107, R108, R111): value, epoch, producer queue of a shared counter, and the job it is lent to. -/
structure Counter where
  value : BitVec 32
  epoch : Byte
  owner : Nat
  lent : Option Nat
  deriving DecidableEq, Repr

/-- Why a thread holds (R145, R147, R150, R159). -/
inductive Hold where
  | none
  | wait (ctr : Nat) (target : BitVec 32)
  | balloc (d : Nat) (size : Nat)
  | unit
  deriving DecidableEq, Repr

/-- The tensor status summary of a thread (R134). -/
structure Tst where
  first : Byte
  last : Byte
  count : BitVec 32
  deriving DecidableEq, Repr

/-- The unit that holds a tensor command (Table 5.15). -/
inductive CmdUnit where
  | engine (e : Nat)
  | skidder (k : Nat)
  | gather
  | take (s : Nat)
  | session (n : Nat)
  | records (r : Nat)
  | openAny
  | logStore
  | landing (stand : Nat)
  deriving DecidableEq, Repr

/-- A tensor-issue instruction that waits in issue (R152, R159): its unit, and the parameter block and the counter that it
has read. -/
structure Issue where
  unit : CmdUnit
  pb : BitVec 512
  sig : Option Nat
  deriving DecidableEq, Repr

/-- A running thread (Table 5.1); `job` is the serial number of its job, `jidx` its index in the job; `issue` is what its
instruction keeps while it waits in issue. -/
structure Thread where
  job : Nat
  jidx : Nat
  s : SMap Dword
  v : SMap VecReg
  p : SMap Dword
  t : SMap (BitVec 1024)
  pc : BitVec 20
  ep : Byte
  hold : Hold
  issue : Option Issue
  deriving DecidableEq, Repr

/-- A started job (R98 to R103, R384, R395, R396): its queue, ring and entry, its program header, and what it holds. -/
structure Job where
  sq : Nat
  ring : Nat
  idx : Nat
  entry : BitVec 512
  header : BitVec 512
  ctx : Nat
  epoch : Byte
  nextThread : Nat
  lent : List Nat
  tst : SMap Tst
  ended : Option Nat
  placed : Nat
  voided : Nat
  deriving DecidableEq, Repr

/-- The stages of a tensor command (R152 to R156, R124). -/
inductive CmdPhase where
  | queued
  | accepted
  | suspended
  | finished (status : Nat)
  deriving DecidableEq, Repr

/-- The operation of a tensor command (Table 5.12). -/
inductive TOp where
  | mma | mmaZero | mmaStore
  | win | rsmp | warp
  | skid | gather | scatter
  | takeFrame | takeRegion
  | codec
  | logrd | logwr
  | slotPlace | slotVoid
  deriving DecidableEq, Repr

/-- A translation that a transfer lacks (R116), and what its fault record would say (Table 4.8). -/
structure Need where
  va : Nat
  write : Bool
  ctx : Nat
  agent : Nat
  unit : Nat
  sq : Nat
  tag : Nat
  cursor : Nat
  total : Nat
  deriving DecidableEq, Repr

/-- A tensor command (R152): its words, copied operands and parameter block, and where it stands. `job`, `thread`
and `jidx` name the issuer; `sig` is its counter when INC is not 0. -/
structure Cmd where
  unit : CmdUnit
  op : TOp
  form : TForm
  job : Nat
  thread : Nat
  jidx : Nat
  ta : BitVec 1024
  tb : BitVec 1024
  tc : BitVec 1024
  pb : BitVec 512
  pbAddr : Dword
  x : Dword
  y : Dword
  epoch : Byte
  sig : Option Nat
  phase : CmdPhase
  cursor : Nat
  staging : Nat
  stage : List Byte
  fail : Option Nat
  result : BitVec 56
  scratch : List Nat
  /-- owner entries read so far, by address (R183) -/
  owners : SMap Nat
  /-- the lines that it has read from memory, oldest first (R328); none for a line whose read failed for good -/
  lines : List (Nat × Option (BitVec 512))
  /-- the translation that it waits for -/
  need : Option Need
  /-- the command works on a pipe or is in progress in its unit -/
  active : Bool
  /-- issue order in its unit -/
  order : Nat
  deriving DecidableEq, Repr

/-- A fetched submission entry in a queue's cache (R389). -/
structure CachedEntry where
  idx : Nat
  bits : BitVec 512
  deriving DecidableEq, Repr

/-- A submission queue beside its registers (R389 to R394, R400): the cached entries, whether a scan runs and another
follows, the first malformed entry (index, reason, job tag), and byte 0x07, as fetched, of each started entry whose OWN
write is not done, oldest first. -/
structure SubQueue where
  cache : List CachedEntry
  scanning : Bool
  again : Bool
  bad : Option (Nat × Nat × Nat)
  started : List Byte
  deriving DecidableEq, Repr

/-- A completion that waits to be written (R395 to R397, R386). -/
structure Completion where
  job : Nat
  sq : Nat
  status : Nat
  idx : Nat
  placed : Nat
  voided : Nat
  errors : Nat
  errThread : Nat
  lastErr : Nat
  irq : Bool
  sig : Option (Nat × Nat × Byte)
  /-- it holds a credit of its ring already -/
  credit : Bool
  deriving DecidableEq, Repr

/-- A completion ring beside its registers (R397, R399): the pass, the credits in use, the completions written since
its cause bit was last cleared, and the completions that wait to be written. -/
structure Ring where
  pass : Bool
  inUse : Nat
  since : Nat
  pend : List Completion
  deriving DecidableEq, Repr

/-- A cached leaf (R121): context, first 64 KiB page, whether it is a large page, and the leaf entry. -/
structure Leaf where
  ctx : Nat
  page : Nat
  large : Bool
  entry : Dword
  deriving DecidableEq, Repr

/-- An invalidation in progress (R122), with the values of its GO write and the accesses it waits for. -/
structure Inval where
  scope : Nat
  ctx : Nat
  va : Nat
  pages : Nat
  waits : List Nat
  deriving DecidableEq, Repr

/-- Who suspended (Table 4.8): a tensor command, a landing delivery of a deck channel, or a receive port's write. -/
inductive Suspender where
  | cmd (id : Nat)
  | deck (c : Nat)
  | rxPort (r : Nat)
  deriving DecidableEq, Repr

/-- A suspended transfer (R124, Table 4.8). -/
structure Susp where
  who : Suspender
  need : Need
  level : Nat
  kind : Nat
  seq : Byte
  deriving DecidableEq, Repr

/-- The translation unit (R114 to R129). -/
structure Xlate where
  roots : SMap Dword
  cache : List Leaf
  inval : Option Inval
  fids : SMap Susp
  seqs : SMap Byte
  holding : List Susp
  records : List (BitVec 256)
  pass : Bool
  deriving DecidableEq, Repr

/-- Who holds a boom buffer (R339). -/
inductive Holder where
  | job (j : Nat)
  | session (n : Nat)
  | frame (s : Nat) (id : Nat)
  deriving DecidableEq, Repr

/-- Who waits for a boom buffer (R336): a thread in BALLOC, or a camera frame. -/
inductive Waiter where
  | thread (th : Nat)
  | frame (s : Nat) (id : Nat)
  deriving DecidableEq, Repr

/-- The boom manager beside its registers (R335 to R340): the holders by local buffer key, and the
waiters, oldest first. -/
structure Booms where
  held : SMap Holder
  waiters : List Waiter
  deriving DecidableEq, Repr

/-- A closed slot of the current deck (R346 to R352): its status, and the job that placed or voided it, none for a
straggler void and for a place that was lost. A slot in the window that is not listed is open. -/
inductive Slot where
  | placed (status : Nat) (job : Option Nat)
  | voided (status : Nat) (job : Option Nat)
  deriving DecidableEq, Repr

/-- A destination pair of a deck on the flume (R372): its receiver nodes as a mask, its consumer, and its flow; none
where the deck has no flow left for it. -/
structure Pair where
  nodes : Nat
  consumer : Nat
  flow : Option Nat
  deriving DecidableEq, Repr

/-- A slot that has been delivered and whose writes are not all known to be acknowledged (R349): the slot, its position,
whether its position holds its sample, whether its delivery has failed (R352), the serial numbers of its line writes, and the flows that carry it with their byte
counts after it. -/
structure Sent where
  slot : Nat
  pos : Nat
  good : Bool
  failed : Bool
  serials : List Nat
  marks : List (Nat × Nat)
  deriving DecidableEq, Repr

/-- A deck channel beside its registers (R344 to R356). `desc` is the destination descriptor captured at the enable,
`ctrl` to `info` the words of DK_CTRL, DK_SLOTS, DK_SPACE, DK_DSTRIDE, DK_DBUF and the info address captured with it;
`closed` lists the closed slots of the window, `cursor` the bytes of the head slot or of the info block delivered,
`sending` the serial numbers of the head slot's line writes so far, `sent` the slots whose writes may not be acknowledged, and
`late` the slots of the current deck that were voided as stragglers. -/
structure Deck where
  desc : BitVec 1024
  ctrl : Word
  slots : Word
  space : Word
  dstride : Nat
  dbuf : Nat
  info : Nat
  isOpen : Bool
  closed : SMap Slot
  status : SMap Nat
  mask : SMap Bool
  pos : Nat
  valid : Nat
  voided : Nat
  stamp : Nat
  short : Bool
  surplus : Option Nat
  closing : Nat
  cursor : Nat
  sending : List Nat
  sent : List Sent
  late : List Nat
  times : List Nat
  strag : List (Nat × Nat)
  surplusRec : List (Nat × Nat)
  downEpoch : Option Byte
  flows : List Nat
  pairs : List Pair
  need : Option Need
  fail : Option Nat
  deriving DecidableEq, Repr

/-- The configuration that a stream's frames use (R255, R258): the words of the shadow registers when loaded. -/
structure CamCfg where
  fmt : Word
  size : Word
  win : Word
  wsize : Word
  boom : Word
  ae : Word
  deriving DecidableEq, Repr

/-- The gains and the exposure of a stream's loops (R270 to R272); `seeds` while no loop has updated them since the
enable. -/
structure Loop where
  gainR : Nat
  gainB : Nat
  dgain : Nat
  exp : Nat
  skip : Nat
  seeds : Bool
  deriving DecidableEq, Repr

/-- One image line of a frame: its row, its bytes, its place in the arrival order, whether a lane has processed it
(R260), the lane that works on it, and the lane whose fault discarded its output last (R264). -/
structure Line where
  row : Nat
  bytes : List Byte
  arrived : Nat
  done : Bool
  onLane : Option Nat
  again : Option Nat
  deriving DecidableEq, Repr

/-- A frame of a stream (R253, R261, R269 to R276): a serial number of the model's, its number and stamp, its
configuration and pipeline table, its lines, and once admitted its loop state and boom buffers; `lost` says that a word
of its buffers is lost (R422, R423). -/
structure Frame where
  id : Nat
  fno : Nat
  wc : Nat
  stamp : Dword
  cfg : CamCfg
  table : SMap Byte
  lines : List Line
  received : Nat
  corrupt : Bool
  ended : Bool
  admitted : Bool
  complete : Bool
  taken : Bool
  lost : Bool
  loop : Loop
  seeded : Bool
  bufs : List Nat
  written : Nat
  record : List Byte
  deriving DecidableEq, Repr

/-- An entry of a stream's queue (R274): a frame or a drop run (first frame, length, status). -/
inductive Entry where
  | frame (f : Frame)
  | drops (first len status : Nat)
  deriving DecidableEq, Repr

/-- A camera stream beside its registers (R255 to R276). -/
structure CamStream where
  active : CamCfg
  loop : Loop
  started : Nat
  entries : List Entry
  /-- the sensor's number of a dropped frame whose Frame End has not come yet (R253, R260) -/
  dropping : Option Nat
  deriving DecidableEq, Repr

/-- The pixel front end's arbitration and its pipeline tables (R263, R264, R268): lanes whose last line was faulted,
and lanes with a fault that waits for their next line. -/
structure FrontEnd where
  deficit : SMap Nat
  nextPort : Nat
  faulted : SMap Bool
  charged : SMap Bool
  tables : SMap Byte
  arrivals : Nat
  deriving DecidableEq, Repr

/-- The mark of a pool entry (Table 10.7). -/
inductive Mark where
  | free | cur | sref | lref
  deriving DecidableEq, Repr

/-- A pool entry of a codec session (R287, R288): the keys of its three buffers, its mark, its decode order and its HEVC
picture order count. -/
structure PoolEntry where
  y : Nat
  c : Nat
  aux : Nat
  mark : Mark
  order : Nat
  poc : Int
  deriving DecidableEq, Repr

/-- An open codec session beside its counters (R280 to R299): the first words of its open block, its context, the
stand of its pool (0xF: none), and the history that the encoder's rate control and the reference process need.
(DESIGN CHOICE, log entry 88) -/
structure Session where
  cfg : BitVec 512
  ctx : Nat
  home : Nat
  pool : List PoolEntry
  bufs : List Nat
  decoded : Nat
  sinceIdr : Nat
  needIdr : Bool
  firstGop : Bool
  lastQpInit : Option Nat
  lastIdr : Option (Nat × Nat)
  lastP : Option (Nat × Nat)
  /-- what the standard's decoding process keeps of the strings decoded so far (parameter sets, sequence header, order
  counts, saved contexts), as a number (R299); (DESIGN CHOICE, log entry 88) -/
  kept : Nat
  /-- the pool entries that the eight AV1 reference slots name (R287) -/
  slots : List (Option Nat)
  /-- a picture has been decoded, and RASL pictures are left out since the CRA that decoding began at (R289) -/
  begun : Bool
  skipRasl : Bool
  deriving DecidableEq, Repr

/-- The codec and the record decoder (R279 to R304): the open sessions, the contexts of the open record streams, and
the record streams whose first record has not been read. -/
structure Codec where
  sessions : SMap Session
  records : SMap Nat
  firstRec : SMap Bool
  deriving DecidableEq, Repr

/-- A segment of the log store (Table 11.4), with what its programmed stripe units hold (unit, first stream offset,
bytes), whether a plane of it has lost a block without a spare (R321), and whether a codeword of it was uncorrectable or
needed more than 4 retry reads (R320). -/
structure Segment where
  state : Nat
  stream : Nat
  member : Nat
  width : Nat
  erases : Nat
  gseq : Nat
  goff : Nat
  reads : Nat
  stamp : Nat
  fill : List (Nat × Nat × Nat)
  dead : Bool
  sick : Bool
  deriving DecidableEq, Repr

/-- A stream of the log store (Table 11.5): policy, START, END, the next offset, its groups by GSEQ, oldest first, and
the stripe units of the newest group that are begun and that are left. -/
structure LogStream where
  ring : Bool
  start : Nat
  endOff : Nat
  next : Nat
  groups : List Nat
  unit : Nat
  left : Nat
  deriving DecidableEq, Repr

/-- A record of the journal (Table 11.6): TYPE, STREAM, A, B, MEMBER, WIDTH and GOFF of an ALLOC or C of the other types,
and JSEQ. -/
structure JRec where
  type : Nat
  stream : Nat
  a : Nat
  b : Nat
  member : Nat
  width : Nat
  c : Nat
  seq : Nat
  deriving DecidableEq, Repr

/-- A NAND operation in progress (R31, R54): kind 1 program of a stripe unit, 2 erase, 3 read, 4 program of a journal
page; its target, what it programs and how many of its first bytes are still part of their stream (R316), how often it has
been tried, the bus failures that it has met (R318), and for a read its LOGRD. -/
structure NandOp where
  kind : Nat
  target : Nat
  segment : Nat
  unit : Nat
  stream : Nat
  first : Nat
  bytes : List Byte
  keep : Nat
  tries : Nat
  bus : Nat
  recs : List JRec
  cmd : Nat
  deriving DecidableEq, Repr

/-- A stripe unit that is not programmed yet (R313): `due` once it is full, flushed or timed out; `redo` when it holds
a program that failed once; its segment is 2^22 while a redone one has no place yet (R321). -/
structure OpenUnit where
  stream : Nat
  segment : Nat
  unit : Nat
  first : Nat
  bytes : List Byte
  due : Bool
  redo : Bool
  deriving DecidableEq, Repr

/-- A reclaim in progress (R322): source, destination, cause, stage (1 begun, 2 committed), and the group of the source
when it began. -/
structure Reclaim where
  src : Nat
  dst : Nat
  cause : Nat
  stage : Nat
  gseq : Nat
  deriving DecidableEq, Repr

/-- The part of the log store that lives on VDD_FK (R311 to R326): the command and its status to report, the working
tables, the words of LS_STR_CFG by stream, units and operations, groups being formed, how many journal records there are
since the checkpoint, the segments that journal and checkpoints take, the reclaim with those that are due, the read-retry
option learnt for each block, the failures of each block (both by segment × 4 + plane), the spare blocks left in each plane,
the blocks that spares replace, the delay codes of each channel (8 on from it for writes, R307), and the journal records that
are not on a page yet. (DESIGN CHOICE, log entry 50) -/
structure LogStore where
  command : Option Nat
  result : Option Nat
  segs : SMap Segment
  streams : SMap LogStream
  bound : SMap Nat
  units : List OpenUnit
  ops : SMap NandOp
  nextOp : Nat
  gseq : Nat
  lastTarget : Nat
  forming : SMap (List Nat)
  journal : Nat
  sysUse : Nat
  reclaim : Option Reclaim
  due : List (Nat × Nat)
  learnt : SMap Nat
  blockFails : SMap Nat
  spares : SMap (List Nat)
  memFail : Option Nat
  subst : SMap Nat
  dly : SMap Nat
  unsaved : List JRec
  jseq : Nat
  deriving DecidableEq, Repr

/-- A codeword as it is written (R308): 4,096 data bytes, 32 bytes of metadata, 448 bytes of parity. -/
structure Codeword where
  data : List Byte
  info : List Byte
  parity : List Byte
  deriving DecidableEq, Repr

/-- The tables that a checkpoint saves (R311): segments, streams, substitutions (by segment × 4 + plane), the spare
blocks left by plane of a LUN, read-retry history, and the reclaim that is in progress. -/
structure LogTables where
  segs : SMap Segment
  streams : SMap LogStream
  subst : SMap Nat
  spares : SMap (List Nat)
  learnt : SMap Nat
  reclaim : Option Reclaim
  gseq : Nat
  deriving DecidableEq, Repr

/-- The latest anchor of a target (Table 11.3), which of its two blocks holds it, and at which page (R310). -/
structure Anchor where
  clean : Bool
  storeId : Dword
  seq : Nat
  geom : Word
  sparePct : Nat
  stripe : Nat
  targets : Nat
  ckptSeg : Nat
  ckptSeq : Nat
  jrnSeg : Nat
  block : Nat
  page : Nat
  deriving DecidableEq, Repr

/-- What the NAND devices hold (R308 to R311, R326): outside the block, kept through every reset. The format as the
governing anchor gives it, the anchors of the targets, the stripe units page by page, the latest checkpoint, and the
durable journal after it with its pages; `torn` says that a program or an erase was cut off by loss of power, `clean` that
nothing has been programmed since UNMOUNT, and `retired` counts the blocks retired since format. -/
structure Flash where
  formatted : Bool
  clean : Bool
  torn : Bool
  storeId : Dword
  ckptSeq : Nat
  geom : Word
  stripe : Nat
  sparePct : Nat
  targets : Nat
  anchors : SMap Anchor
  anchorWords : SMap Codeword
  pages : SMap (List Codeword)
  ckpt : LogTables
  ckptWords : List Codeword
  journal : List JRec
  journalWords : List Codeword
  retired : Nat
  deriving DecidableEq, Repr

/-- A flow that this node sources (R364, R372 to R375): its channel, direction, class, receivers still attached,
consumer, deck and epoch; the packets sent and acknowledged; GAP packets to send, payload bytes not yet sent, payload
bytes in all, how far the flow has come (`flush`: its samples are all there; `complete`: its info block too), and the offset of
its info block. -/
structure Flow where
  chan : Nat
  east : Bool
  reserved : Bool
  receivers : List Nat
  multicast : Bool
  consumer : Nat
  deck : Nat
  epoch : Byte
  opened : Bool
  sent : Nat
  acked : SMap Nat
  gaps : List Packet
  out : List Byte
  bytes : Nat
  flush : Bool
  complete : Bool
  ended : Bool
  infoAt : Nat
  deriving DecidableEq, Repr

/-- A packet in an input buffer (R361, R368, R376): whether this node still takes it, and whether it is still to pass on. -/
structure HeldPacket where
  pk : Packet
  take : Bool
  pass : Bool
  deriving DecidableEq, Repr

/-- One flume link (R361, R363): sequence numbers of both directions, input credits, replay copies, packets that wait
in the input buffers, link-control bytes to send, replays of one packet in a row, the state of training, and whether the
node's own packet is the next of its class on the outbound direction (R367). -/
structure Link where
  seqOut : Nat
  seqIn : Nat
  credits : Nat
  replay : List (Nat × Packet)
  input : List HeldPacket
  llc : List Byte
  strikes : Nat
  training : Bool
  trained : Bool
  failed : Bool
  ownR : Bool
  ownX : Bool
  deriving DecidableEq, Repr

/-- How a deck ended (R371, Table 13.4): its status, LENGTH of its DECK_END, GAP, DECK and EPOCH, and where its info block
lies, where that is known. -/
structure RxEnd where
  status : Nat
  len : Nat
  gap : Nat
  deck : Nat
  epoch : Byte
  info : Option Nat
  deriving DecidableEq, Repr

/-- A deck that arrives on a flow (R365, R370, R371): its flow, its port, the fields of its OPEN, whether this node is its last
receiver, payload bytes taken and written, whether its packets are discarded, whether this node is detached from it (R374), how
it ended, and whether its record has been begun. -/
structure RxDeck where
  flow : Nat
  port : Nat
  src : Nat
  chan : Nat
  deck : Nat
  epoch : Byte
  last : Bool
  taken : Nat
  written : Nat
  dropped : Bool
  detached : Bool
  ended : Option RxEnd
  recorded : Bool
  cursor : Nat
  need : Option Need
  fail : Option Nat
  deriving DecidableEq, Repr

/-- The flume port beside its registers (R358 to R379): links, own flows, the bucket of reserved packets in fclk
cycles, the deck at each receive port, decks announced that wait for their port or are discarded, packets in the
receive area by flow, REPORT and NOTICE packets to send with their direction, ABORT packets to send with their direction and
whether their flow was reserved, whether a write of EN = 0 is being carried out, whether one has been since EN was last set,
whether NODE_JOINED has been reported, the links known to be down by the node west of each, the nodes known to have left, the
class of each passing flow (true for reserved), and the control packets discarded for their CRC. -/
structure Flume where
  east : Link
  west : Link
  flows : SMap Flow
  bucket : Nat
  rx : SMap RxDeck
  opens : List RxDeck
  rxHeld : List (Nat × Packet)
  nseq : Byte
  disabling : Bool
  stopped : Bool
  joined : Bool
  notices : List (Nat × Packet)
  aborts : List (Nat × Bool × Packet)
  down : List Nat
  left : List Nat
  classes : SMap Bool
  badCtl : Nat
  deriving DecidableEq, Repr

/-- An accumulator bank of a matrix engine (R194, R195): its class, its owner and its elements. -/
structure Bank where
  cls : Nat
  owner : Option Nat
  elems : SMap Word
  deriving DecidableEq, Repr

/-- Every unit on VDD_FK: a block-domain reset returns it whole to `Fk.reset` (R19, R416). `owed` lists the writes that
agents have put together and not yet requested, oldest first; `waits` the requests that found every tag of their pool in
use, `served` the agent that took a tag last (R329), and `entered` the channels, with the direction, whose presented request
has transferred since the entry into reset (R53). `accounted` lists the lines, with their direction, whose final failure
GLB_MERR has counted before the step that they belong to. `places` gives, by unit, the thread that took a place in its
queue last (R159). -/
structure Fk where
  regs : SMap Word
  stage : SMap Word
  trig : SMap Trig
  rdTags : SMap MemTag
  wrTags : SMap MemTag
  retries : List Retry
  owed : List Retry
  waits : List MemReq
  served : Nat
  entered : List (Bool × Nat)
  accounted : List (Bool × Nat)
  serial : Nat
  scr : SMap Byte
  land : SMap Byte
  pstore : SMap Byte
  counters : SMap Counter
  threads : SMap Thread
  jobs : SMap Job
  cmds : SMap Cmd
  nextId : Nat
  places : SMap Nat
  queues : SMap SubQueue
  rings : SMap Ring
  lastSq : Nat
  xl : Xlate
  booms : Booms
  decks : SMap Deck
  cam : SMap CamStream
  fe : FrontEnd
  codec : Codec
  ls : LogStore
  flume : Flume
  banks : SMap Bank
  tally : SMap Nat
  window : SMap Nat
  hung : Bool
  hangSnap : List Nat
  deriving DecidableEq, Repr

/-- What lies outside the block and the block reads or writes: the memory side as the block has seen it (R61), and
the NAND devices. -/
structure Ext where
  mem : SMap Byte
  flash : Flash
  deriving DecidableEq, Repr

/-- The block without the queue of waiting commands. `free` counts the free values used so far (DESIGN CHOICE, log entry 2). -/
structure Block where
  pins : Pins
  bus : Bus
  ao : Ao
  fk : Fk
  ext : Ext
  free : Nat
  deriving DecidableEq, Repr

/-- The machine: the commands that wait, first in first out, and the block. -/
structure State where
  pending : List Instr
  blk : Block
  deriving DecidableEq, Repr

/-- Reasons the machine stops with a fault. No meaning of this model raises one: VDD_AO outside its range leaves the
register port without an answer (R452), which is a state. (DESIGN CHOICE, log entry 75) -/
inductive Fault where
  /-- Raised by no command; kept so that the type names the one condition that the spec leaves without any outcome,
  a test mode entered through `fk_tm_en` (R43), which no row of the table reaches. Safe. -/
  | testMode
  deriving DecidableEq, Repr

/-- Reasons the machine refuses a command. (DESIGN CHOICE, log entry 75) -/
inductive Refusal where
  /-- The command has no meaning in this model yet. Raised by Dispatch for such a row only. Safe. -/
  | notModelled (mnemonic : String)
  deriving DecidableEq, Repr

/-- Straps before the first sample (DESIGN CHOICE, log entry 3). -/
def Straps.none : Straps :=
  { mem := 0, cam := 0, nand := 0, fe := false, fw := false, tb := false, mfr := 0 }

/-- The control island after cold reset (Tables 1.4, 1.10, 1.11, 2.4 to 2.23, 3.3 to 3.6, 5.17, 15.4 to 15.9).
(DESIGN CHOICE, log entry 76) -/
def Ao.reset : Ao where
  regs := []
  straps := Straps.none
  phase := .held
  nandWaitOver := false
  controlReset := false
  tap := { ir := 0x01, addr := 0, data := 0 }
  dump := []
  dumpRun := none
  rst := []
  lasting := []
  out := []
  repairs := []
  fenced := []
  donors := []
  lanes := 0x0FF
  lanesOut := 0
  paceSkip := true
  sampled := false

/-- The translation unit after reset: empty cache, every SEQ 0, first pass (R121, R124, R126). -/
def Xlate.reset : Xlate where
  roots := []
  cache := []
  inval := none
  fids := []
  seqs := []
  holding := []
  records := []
  pass := true

/-- The log store after reset: unmounted (R326). (DESIGN CHOICE, log entry 76) -/
def LogStore.reset : LogStore where
  command := none
  result := none
  segs := []
  streams := []
  bound := []
  units := []
  ops := []
  nextOp := 0
  gseq := 0
  lastTarget := 0
  forming := []
  journal := 0
  sysUse := 0
  reclaim := none
  due := []
  learnt := []
  blockFails := []
  spares := []
  memFail := none
  subst := []
  dly := []
  unsaved := []
  jseq := 0

/-- A flume link after reset: down, 32 input buffers of the neighbour to send to (R361). -/
def Link.reset : Link where
  seqOut := 0
  seqIn := 0
  credits := 32
  replay := []
  input := []
  llc := []
  strikes := 0
  training := false
  trained := false
  failed := false
  ownR := true
  ownX := true

/-- The flume port after reset (R379). (DESIGN CHOICE, log entry 76) -/
def Flume.reset : Flume where
  east := Link.reset
  west := Link.reset
  flows := []
  bucket := 256
  rx := []
  opens := []
  rxHeld := []
  nseq := 0
  disabling := false
  stopped := false
  joined := false
  notices := []
  aborts := []
  down := []
  left := []
  classes := []
  badCtl := 0

/-- Every VDD_FK unit at its reset value, SRAM zeroed (Table 2.7 step 5, R447 step 4). (DESIGN CHOICE, log entry 76) -/
def Fk.reset : Fk where
  regs := []
  stage := []
  trig := []
  rdTags := []
  wrTags := []
  retries := []
  owed := []
  waits := []
  served := 0
  entered := []
  accounted := []
  serial := 0
  scr := []
  land := []
  pstore := []
  counters := []
  threads := []
  jobs := []
  cmds := []
  nextId := 0
  places := []
  queues := []
  rings := []
  lastSq := 0
  xl := Xlate.reset
  booms := { held := [], waiters := [] }
  decks := []
  cam := []
  fe := { deficit := [], nextPort := 0, faulted := [], charged := [], tables := [], arrivals := 0 }
  codec := { sessions := [], records := [], firstRec := [] }
  ls := LogStore.reset
  flume := Flume.reset
  banks := []
  tally := []
  window := []
  hung := false
  hangSnap := []

/-- NAND devices that no store has been written to yet (DESIGN CHOICE, log entry 4). -/
def Flash.blank : Flash where
  formatted := false
  clean := false
  torn := false
  storeId := 0
  ckptSeq := 0
  geom := 0
  stripe := 0
  sparePct := 0
  targets := 0
  anchors := []
  anchorWords := []
  pages := []
  ckpt := { segs := [], streams := [], subst := [], spares := [], learnt := [], reclaim := none, gseq := 0 }
  ckptWords := []
  journal := []
  journalWords := []
  retired := 0

/-- The block held in cold reset: both supplies in range, `fk_cold_rst_n` low, the other inputs high, the register
port's clock running (DESIGN CHOICE, log entry 3). (DESIGN CHOICE, log entry 76) -/
def Block.reset : Block where
  pins := { vddAo := true, vddFk := true, coldN := false, warmN := true, pwrok := true, pfailN := true,
            hclkOn := true, fclkOn := true, irq := false }
  bus := { ack := false, rdata := 0, err := false, held := [], cap := [] }
  ao := Ao.reset
  fk := Fk.reset
  ext := { mem := [], flash := Flash.blank }
  free := 0

/-- The machine right after reset: cold reset in force, nothing waiting. (DESIGN CHOICE, log entry 3) -/
def State.reset : State where
  pending := []
  blk := Block.reset

end Sys2Proof.Machine
end

