-- ==== Sys2Proof/Machine/Regs.lean ====
section
/-! DEFINITION. The register window: the offset of each register, its writable and write-one-to-clear bits and its reset value, from the register tables of the spec. -/

namespace Sys2Proof.Machine

/-- A register of the window: the bits a write sets, the bits a written 1 clears, and the value after cold reset. -/
structure RegInfo where
  rw : Word
  w1c : Word
  reset : Word
  deriving DecidableEq, Repr

/-- A read-only register. -/
def roReg (reset : Word) : RegInfo := { rw := 0, w1c := 0, reset := reset }

/-- A register with writable bits. -/
def rwReg (rw reset : Word) : RegInfo := { rw := rw, w1c := 0, reset := reset }

/-- A register with write-one-to-clear bits. -/
def w1cReg (w1c reset : Word) : RegInfo := { rw := 0, w1c := w1c, reset := reset }

-- Offsets of the registers that the meanings name.
def GLB_STATUS : Nat := 0x14
def GLB_TB_NOW_LO : Nat := 0x18
def GLB_TB_NOW_HI : Nat := 0x1C
def GLB_MERR : Nat := 0x20
def GLB_MERR_ADDR_LO : Nat := 0x24
def GLB_MERR_ADDR_HI : Nat := 0x28
def GLB_MSPUR : Nat := 0x2C
def GLB_BYP : Nat := 0x30
def GLB_PSTORE_BANK : Nat := 0x40
def SYNC_POOL : Nat := 0x100
def SYNC_SEL : Nat := 0x104
def SYNC_VAL : Nat := 0x108
def SYNC_ADD : Nat := 0x10C
def SYNC_CFG : Nat := 0x110
def GLB_EXC_STAT : Nat := 0x200
def GLB_EXC_THR : Nat := 0x204
def GLB_EXC_PC : Nat := 0x208
def GLB_EXC_WORD : Nat := 0x20C
def GLB_EXC_COUNT : Nat := 0x210
def INT_SUMMARY : Nat := 0x1000
def INT_TOP_EN : Nat := 0x1004
def INT_CAUSE (b : Nat) : Nat := 0x1100 + 0x10 * b
def INT_EN (b : Nat) : Nat := 0x1104 + 0x10 * b
def INT_TEST (b : Nat) : Nat := 0x1108 + 0x10 * b
def RST_CTRL : Nat := 0x2000
def RST_STAT : Nat := 0x2004
def RST_TIME : Nat := 0x2008
def HLT_COUNT : Nat := 0x2010
def HLT_CORR : Nat := 0x2014
def HLT_LOG_IDX : Nat := 0x2018
def HLT_LOG (i : Nat) : Nat := 0x2020 + 0x10 * i
def HANG_CFG : Nat := 0x2200
def HANG_STAT : Nat := 0x2204
def HANG_Q_LO : Nat := 0x2208
def HANG_Q_HI : Nat := 0x220C
def DMP_CTRL : Nat := 0x2300
def DMP_STAT : Nat := 0x2304
def SPR_INVENTORY : Nat := 0x2400
def SPR_STAND_MAP : Nat := 0x2404
def SPR_SRAM : Nat := 0x2408
def SPR_SELFTEST : Nat := 0x240C
def PACE_CTRL : Nat := 0x2700
def PACE_FLOOR : Nat := 0x2704
def PACE_SLOW : Nat := 0x2708
def PACE (i : Nat) : Nat := 0x2800 + 4 * i
def LDG_SEL : Nat := 0x2C00
def LDG_INUSE : Nat := 0x2C04
def LDG_FREE : Nat := 0x2C08
def LDG_TOTAL : Nat := 0x2C0C
def LDG_STAT : Nat := 0x2C10
def SQ (n field : Nat) : Nat := 0x4000 + 0x40 * n + field
def SQ_BASE_LO (n : Nat) : Nat := SQ n 0x00
def SQ_SIZE (n : Nat) : Nat := SQ n 0x08
def SQ_CFG (n : Nat) : Nat := SQ n 0x0C
def SQ_DOORBELL (n : Nat) : Nat := SQ n 0x10
def SQ_INVALIDATE (n : Nat) : Nat := SQ n 0x14
def SQ_HEAD (n : Nat) : Nat := SQ n 0x18
def SQ_FETCH (n : Nat) : Nat := SQ n 0x1C
def SQ_ERRIDX (n : Nat) : Nat := SQ n 0x20
def SQ_STAT (n : Nat) : Nat := SQ n 0x24
def CR (r field : Nat) : Nat := 0x5000 + 0x40 * r + field
def CR_BASE_LO (r : Nat) : Nat := CR r 0x00
def CR_SIZE (r : Nat) : Nat := CR r 0x08
def CR_TAIL (r : Nat) : Nat := CR r 0x0C
def CR_HEAD (r : Nat) : Nat := CR r 0x10
def CR_IRQ (r : Nat) : Nat := CR r 0x14
def CR_CREDIT (r : Nat) : Nat := CR r 0x18
def CR_STAT (r : Nat) : Nat := CR r 0x1C
def QM_STOPPED_LO : Nat := 0x5800
def QM_STOPPED_HI : Nat := 0x5804
def QM_TDN : Nat := 0x5808
def BOOM_CTRL : Nat := 0x8000
def BOOM_CRIT_EXEMPT_LO : Nat := 0x8008
def BOOM_BADPTR : Nat := 0x8010
def BOOM_BADPTR_ADDR : Nat := 0x8014
def BOOM (k field : Nat) : Nat := 0x8100 + 0x20 * k + field
def BOOM_CFG (k : Nat) : Nat := BOOM k 0x00
def BOOM_WARN (k : Nat) : Nat := BOOM k 0x04
def BOOM_HOLD (k : Nat) : Nat := BOOM k 0x08
def BOOM_CRIT (k : Nat) : Nat := BOOM k 0x0C
def BOOM_TOTAL (k : Nat) : Nat := BOOM k 0x10
def BOOM_FREE (k : Nat) : Nat := BOOM k 0x14
def BOOM_INUSE (k : Nat) : Nat := BOOM k 0x18
def BOOM_STAT (k : Nat) : Nat := BOOM k 0x1C
def SKD_CFG (i : Nat) : Nat := 0x8800 + 8 * i
def SKD_STAT (i : Nat) : Nat := 0x8804 + 8 * i
def GE_CFG : Nat := 0x8880
def GE_STAT : Nat := 0x8884
def MV_TAGS : Nat := 0x8890
def LND_STAT : Nat := 0x9000
def DK (c field : Nat) : Nat := 0xA000 + 0x40 * c + field
def DK_CTRL (c : Nat) : Nat := DK c 0x00
def DK_SLOTS (c : Nat) : Nat := DK c 0x04
def DK_SPACE (c : Nat) : Nat := DK c 0x08
def DK_DESC_LO (c : Nat) : Nat := DK c 0x0C
def DK_INFO_LO (c : Nat) : Nat := DK c 0x14
def DK_DSTRIDE (c : Nat) : Nat := DK c 0x1C
def DK_DBUF (c : Nat) : Nat := DK c 0x20
def DK_BUDGET (c : Nat) : Nat := DK c 0x24
def DK_STRAG (c : Nat) : Nat := DK c 0x28
def DK_POS (c : Nat) : Nat := DK c 0x2C
def DK_DECK (c : Nat) : Nat := DK c 0x30
def DK_RELEASE (c : Nat) : Nat := DK c 0x34
def DK_STAT (c : Nat) : Nat := DK c 0x38
def DK_VOIDS (c : Nat) : Nat := DK c 0x3C
def XL_CTX_SEL : Nat := 0xC000
def XL_INV : Nat := 0xC010
def XL_INV_VA_LO : Nat := 0xC014
def XL_INV_PAGES : Nat := 0xC01C
def XL_FQ_BASE_LO : Nat := 0xC020
def XL_FQ_BASE_HI : Nat := 0xC024
def XL_FQ_SIZE : Nat := 0xC028
def XL_FQ_TAIL : Nat := 0xC02C
def XL_FQ_HEAD : Nat := 0xC030
def XL_FQ_STAT : Nat := 0xC034
def XL_FQ_ACT : Nat := 0xC038
def XL_CTX_CFG (c : Nat) : Nat := 0xC100 + 4 * c
def XL_ROOT_LO (k : Nat) : Nat := 0xC800 + 8 * k
def CAM_PORT (p field : Nat) : Nat := 0x10000 + 0x40 * p + field
def CAM_PORT_CFG (p : Nat) : Nat := CAM_PORT p 0x00
def CAM_PORT_STAT (p : Nat) : Nat := CAM_PORT p 0x04
def CAM_PORT_HDR (p : Nat) : Nat := CAM_PORT p 0x08
def CAM_PORT_CRC (p : Nat) : Nat := CAM_PORT p 0x0C
def CAM_PORT_DISC (p : Nat) : Nat := CAM_PORT p 0x10
def CAM_FE_LANES : Nat := 0x10400
def CAM_FE_BUSY : Nat := 0x10404
def CAM_TBL_SEL : Nat := 0x10408
def CAM_FE_STORE : Nat := 0x1040C
def CAM_CFG_ERR0 : Nat := 0x10410
def CAM_AE_CHG0 : Nat := 0x10418
def CAM_STR (s field : Nat) : Nat := 0x11000 + 0x40 * s + field
def CAM_TRIG (k field : Nat) : Nat := 0x1F000 + 0x10 * k + field
def CAM_TRIG_CTRL (k : Nat) : Nat := CAM_TRIG k 0x0
def CAM_TRIG_PERIOD (k : Nat) : Nat := CAM_TRIG k 0x4
def CAM_TRIG_PHASE (k : Nat) : Nat := CAM_TRIG k 0x8
def CAM_TRIG_WIDTH (k : Nat) : Nat := CAM_TRIG k 0xC
def CDC_SESS (n field : Nat) : Nat := 0x20000 + 0x10 * n + field
def CDC_REC (r field : Nat) : Nat := 0x20200 + 0x10 * r + field
def CDC_STAT : Nat := 0x20400
def LS (field : Nat) : Nat := 0x30000 + field
def LS_CMD : Nat := LS 0x00
def LS_STATUS : Nat := LS 0x04
def LS_FMT : Nat := LS 0x08
def LS_GEOM : Nat := LS 0x0C
def LS_SEG_TOTAL : Nat := LS 0x10
def LS_SEG_FREE : Nat := LS 0x14
def LS_SEG_RESERVE : Nat := LS 0x18
def LS_MEM_BASE_LO : Nat := LS 0x20
def LS_MEM_SIZE : Nat := LS 0x28
def LS_MEM_NEED : Nat := LS 0x2C
def LS_FLUSH : Nat := LS 0x30
def LS_REFRESH : Nat := LS 0x34
def LS_WEAR : Nat := LS 0x38
def LS_WL_CFG : Nat := LS 0x3C
def LS_ERR_RD : Nat := LS 0x40
def LS_ERR_WR : Nat := LS 0x44
def LS_SPARE : Nat := LS 0x48
def LS_CH (c : Nat) : Nat := LS (0x50 + 4 * c)
def LS_RR_DEF (i : Nat) : Nat := LS (0x80 + 4 * i)
def LS_STR_SEL : Nat := LS 0x100
def LS_STR_CFG : Nat := LS 0x104
def LS_STR_START_LO : Nat := LS 0x108
def LS_STR_END_LO : Nat := LS 0x110
def LS_STR_TRIM_LO : Nat := LS 0x118
def LS_STR_TRIM_HI : Nat := LS 0x11C
def FL_CFG : Nat := 0x38000
def FL_LINK (d : Nat) : Nat := 0x38008 + 4 * d
def FL_INFLIGHT : Nat := 0x38010
def FL_ACK_TO : Nat := 0x38014
def FL_RXBUF : Nat := 0x38018
def FL_RXUSED : Nat := 0x3801C
def FL_ALLOW (n : Nat) : Nat := 0x38040 + 4 * n
def FL_GRANT (n : Nat) : Nat := 0x38080 + 4 * n
def FL_DKD (c : Nat) : Nat := 0x38100 + 8 * c
def FL_DKL (c : Nat) : Nat := 0x38104 + 8 * c
def FL_RXP (r field : Nat) : Nat := 0x38400 + 0x20 * r + field
def FL_NOTICE : Nat := 0x38600
def FL_ERR : Nat := 0x38604
def FL_ERR2 : Nat := 0x38608
def TLY_CFG (i : Nat) : Nat := 0x3C000 + 0x10 * i
def TLY_CNT_LO (i : Nat) : Nat := 0x3C004 + 0x10 * i
def TLY_CNT_HI (i : Nat) : Nat := 0x3C008 + 0x10 * i
def TLY_CTRL : Nat := 0x3D000
def TLY_STAT : Nat := 0x3D004
def TLY_WRAP (j : Nat) : Nat := 0x3D010 + 4 * j
def TLY_USER_EN (j : Nat) : Nat := 0x3D040 + 4 * j
def TLY_WIN : Nat := 0x3D080
def TLY_BW_RATE (p : Nat) : Nat := 0x3D100 + 8 * p
def TLY_BW_PEAK (p : Nat) : Nat := 0x3D104 + 8 * p

/-- The cause bits of a branch that Table 14.11 lists. -/
def causeMask : Nat → Word
  | 0 => 0x001FFFFF
  | 1 => 0x0000001F
  | 2 => 0x00000003
  | 3 => 0x000000FF
  | 4 => 0x0000001F
  | 5 => 0x001FFFFF
  | 6 => 0x0000003F
  | 7 => 0x00000001
  | 8 => 0x00000003
  | _ => 0

/-- The registers of the control island (R4, R453, Tables 1.4, 1.10, 1.11, 2.9, 2.12, 2.13, 2.19, 2.23, 3.3 to 3.6,
4.3, 5.17, 14.10, 15.4, 15.6, 15.9, 17.1). -/
def aoInfo (o : Nat) : Option RegInfo :=
  if o = 0x00 then some (roReg 0x00030100)
  else if o = 0x04 then some (roReg 0x6E100F1C)
  else if o = 0x08 then some (roReg 0x002C8409)
  else if o = 0x0C then some (roReg 0x00207F00)
  else if o = 0x10 then some (roReg 0)
  else if o = GLB_STATUS then some (w1cReg 0x20 0)
  else if o = GLB_TB_NOW_LO ∨ o = GLB_TB_NOW_HI then some (roReg 0)
  else if o = GLB_MERR then some (w1cReg 0x80000000 0)
  else if o = GLB_MERR_ADDR_LO ∨ o = GLB_MERR_ADDR_HI ∨ o = GLB_MSPUR then some (roReg 0)
  else if o = GLB_BYP then some (rwReg 0x40000000 0xD0000000)
  else if o = GLB_PSTORE_BANK then some (rwReg 0x3 0)
  else if o = GLB_EXC_STAT then some (w1cReg 0x80000000 0)
  else if GLB_EXC_THR ≤ o ∧ o ≤ GLB_EXC_COUNT then some (roReg 0)
  else if o = INT_SUMMARY then some (roReg 0)
  else if o = INT_TOP_EN then some (rwReg 0x1FF 0)
  else if 0x1100 ≤ o ∧ o < 0x1190 then
    let b := (o - 0x1100) / 0x10
    let f := o % 0x10
    if f = 0x0 then some (w1cReg (causeMask b) 0)
    else if f = 0x4 then some (rwReg 0xFFFFFFFF 0)
    else if f = 0x8 then some (roReg 0)
    else none
  else if o = RST_CTRL then some (rwReg 0x7000FFFF 0)
  else if o = RST_STAT ∨ o = RST_TIME then some (roReg 0)
  else if HLT_COUNT ≤ o ∧ o ≤ HLT_LOG_IDX then some (roReg 0)
  else if 0x2020 ≤ o ∧ o < 0x2120 then some (roReg 0)
  else if o = DMP_CTRL then some (rwReg 0x60000000 0x40000000)
  else if o = DMP_STAT then some (w1cReg 0x80000000 0)
  else if o = SPR_INVENTORY then some (roReg 0x22AA0000)
  else if o = SPR_STAND_MAP then some (roReg 0x76543210)
  else if o = SPR_SRAM ∨ o = SPR_SELFTEST then some (roReg 0)
  else if o = PACE_CTRL then some (rwReg 0xA0FF0000 0x00010000)
  else if o = PACE_FLOOR then some (rwReg 0x80000FFF 0)
  else if o = PACE_SLOW then some (w1cReg 0x80000000 0)
  else if 0x2800 ≤ o ∧ o < 0x2800 + 4 * 248 then some (roReg 0x4FFF0000)
  else none

/-- A submission queue's registers by their field offset (Table 14.1). -/
def sqInfo (f : Nat) : Option RegInfo :=
  if f = 0x00 then some (rwReg 0xFFFFF000 0)
  else if f = 0x04 then some (rwReg 0x000FFFFF 0)
  else if f = 0x08 then some (rwReg 0x00001FFF 0)
  else if f = 0x0C then some (rwReg 0xC0FFF000 0)
  else if f = 0x10 ∨ f = 0x14 then some (roReg 0)
  else if f = 0x18 then some (rwReg 0x00000FFF 0)
  else if f = 0x1C ∨ f = 0x20 ∨ f = 0x24 then some (roReg 0)
  else none

/-- A completion ring's registers (Table 14.6). -/
def crInfo (f : Nat) : Option RegInfo :=
  if f = 0x00 then some (rwReg 0xFFFFF000 0)
  else if f = 0x04 then some (rwReg 0x000FFFFF 0)
  else if f = 0x08 then some (rwReg 0x00007FFF 0)
  else if f = 0x0C then some (roReg 0)
  else if f = 0x10 then some (rwReg 0x00003FFF 0)
  else if f = 0x14 then some (rwReg 0x80FFFFFF 0x00010000)
  else if f = 0x18 ∨ f = 0x1C then some (roReg 0)
  else none

/-- A deck channel's registers (Table 12.5). -/
def dkInfo (f : Nat) : Option RegInfo :=
  if f = 0x00 then some (rwReg 0x8E3F0000 0)
  else if f = 0x04 then some (rwReg 0x1FFF1FFF 0)
  else if f = 0x08 then some (rwReg 0xFF7F007F 0)
  else if f = 0x0C then some (rwReg 0xFFFFFF80 0)
  else if f = 0x10 then some (rwReg 0x0000FFFF 0)
  else if f = 0x14 then some (rwReg 0xFFFFFFC0 0)
  else if f = 0x18 then some (rwReg 0x0000FFFF 0)
  else if f = 0x1C then some (rwReg 0xFFFFFFFF 0)
  else if f = 0x20 then some (rwReg 0x0000000F 0)
  else if f = 0x24 ∨ f = 0x28 then some (rwReg 0xFFFFFFFF 0)
  else if f = 0x2C ∨ f = 0x30 ∨ f = 0x34 then some (roReg 0)
  else if f = 0x38 then some (w1cReg 0x60000000 0)
  else if f = 0x3C then some (roReg 0)
  else none

/-- A camera stream's registers (Table 9.3). -/
def camStrInfo (f : Nat) : Option RegInfo :=
  if f = 0x00 then some (rwReg 0x8000000F 0)
  else if f = 0x04 then some (rwReg 0xFFFF0000 0xAC400000)
  else if f = 0x08 then some (rwReg 0xFFFFFFFF 0x04380780)
  else if f = 0x0C then some (rwReg 0xFFFFFFFF 0)
  else if f = 0x10 then some (rwReg 0xFFFFFFFF 0x04380780)
  else if f = 0x14 then some (rwReg 0x7 0x6)
  else if f = 0x18 then some (rwReg 0xFFFF 0)
  else if f = 0x1C ∨ f = 0x20 ∨ f = 0x24 then some (rwReg 0xFFFFFFFF 0)
  else if f = 0x28 then some (rwReg 0xC0FFFFFF 0x00607530)
  else if f = 0x2C ∨ f = 0x30 ∨ f = 0x34 ∨ f = 0x38 ∨ f = 0x3C then some (roReg 0)
  else none

/-- The log store's registers (Table 11.11). -/
def lsInfo (f : Nat) : Option RegInfo :=
  if f = 0x00 ∨ f = 0x04 then some (roReg 0)
  else if f = 0x08 then some (rwReg 0xFFFF 0x4004)
  else if f = 0x0C ∨ f = 0x10 ∨ f = 0x14 then some (roReg 0)
  else if f = 0x18 then some (rwReg 0x3FFFFF 0x80)
  else if f = 0x20 then some (rwReg 0xFFFFF000 0)
  else if f = 0x24 then some (rwReg 0x000FFFFF 0)
  else if f = 0x28 then some (rwReg 0xFFFF 0)
  else if f = 0x2C then some (roReg 0)
  else if f = 0x30 then some (rwReg 0xFFFF 0x07D0)
  else if f = 0x34 then some (rwReg 0xFFFFFFFF 0x005A0064)
  else if f = 0x38 then some (roReg 0)
  else if f = 0x3C then some (rwReg 0xFFFF 0x00C8)
  else if f = 0x40 ∨ f = 0x44 ∨ f = 0x48 then some (roReg 0)
  else if 0x50 ≤ f ∧ f < 0x70 then some (roReg 0)
  else if 0x80 ≤ f ∧ f < 0xC0 then some (rwReg 0xFF (BitVec.ofNat 32 ((f - 0x80) / 4)))
  else if f = 0x100 then some (rwReg 0x1F 0)
  else if f = 0x104 then some (rwReg 0x7F010000 0)
  else if 0x108 ≤ f ∧ f < 0x118 then some (roReg 0)
  else if f = 0x118 then some (rwReg 0xFFFFFFFF 0)
  else if f = 0x11C then some (rwReg 0x00FFFFFF 0)
  else none

/-- The flume port's registers (Table 13.6). -/
def flInfo (f : Nat) : Option RegInfo :=
  if f = 0x00 then some (rwReg 0x80FF000F 0)
  else if f = 0x08 ∨ f = 0x0C then some (roReg 0)
  else if f = 0x10 then some (roReg 0)
  else if f = 0x14 then some (rwReg 0xFFFF 0x1388)
  else if f = 0x18 then some (rwReg 0x007F007F 0)
  else if f = 0x1C then some (roReg 0)
  else if 0x40 ≤ f ∧ f < 0x80 then some (rwReg 0x7FF 0x100)
  else if 0x80 ≤ f ∧ f < 0xC0 then some (rwReg 0x7FF 0)
  else if 0x100 ≤ f ∧ f < 0x300 then
    if f % 8 = 0 then some (rwReg 0xFFFFFF8F 1) else some (rwReg 0x7FF 0x80)
  else if 0x400 ≤ f ∧ f < 0x600 then
    let g := f % 0x20
    if g = 0x00 then some (rwReg 0xBF00000F 0)
    else if g = 0x04 then some (rwReg 0xFFFFFFC0 0)
    else if g = 0x08 then some (rwReg 0x0000FFFF 0)
    else if g = 0x0C then some (rwReg 0xFFFFFFFF 0)
    else if g = 0x10 then some (rwReg 0xFFFFFFC0 0)
    else if g = 0x14 then some (rwReg 0x0000FFFF 0)
    else some (roReg 0)
  else if f = 0x600 ∨ f = 0x604 ∨ f = 0x608 then some (roReg 0)
  else none

/-- The tally's registers (Table 16.2). -/
def tlyInfo (f : Nat) : Option RegInfo :=
  if f < 0x1000 then
    let g := f % 0x10
    if g = 0x0 then some (rwReg 0xEFFF00FF 0)
    else if g = 0x4 then some (rwReg 0xFFFFFFFF 0)
    else if g = 0x8 then some (rwReg 0x0000FFFF 0)
    else none
  else if f = 0x1000 then some (rwReg 0x80000000 0)
  else if f = 0x1004 then some (w1cReg 0x80000000 0)
  else if 0x1010 ≤ f ∧ f < 0x1030 then some (w1cReg 0xFFFFFFFF 0)
  else if 0x1040 ≤ f ∧ f < 0x1060 then some (rwReg 0xFFFFFFFF 0)
  else if f = 0x1080 then some (rwReg 0xC000FFFF 0x03E8)
  else if 0x1100 ≤ f ∧ f < 0x1178 then some (roReg 0)
  else none

/-- Booms, skidders, the gather engine and the landing (Tables 12.2 to 12.4). -/
def mvInfo (o : Nat) : Option RegInfo :=
  if o = BOOM_CTRL then some { rw := 0x80000000, w1c := 0xFF, reset := 0 }
  else if o = 0x8008 ∨ o = 0x800C then some (rwReg 0xFFFFFFFF 0)
  else if o = BOOM_BADPTR then some (w1cReg 0x80000000 0)
  else if o = BOOM_BADPTR_ADDR then some (roReg 0)
  else if 0x8100 ≤ o ∧ o < 0x8200 then
    let f := o % 0x20
    if f = 0x00 then some (rwReg 0xFFFFFFFF 0)
    else if f = 0x04 ∨ f = 0x08 ∨ f = 0x0C then some (rwReg 0x3FFFF 0)
    else if f = 0x1C then some (w1cReg 0x90000000 0)
    else some (roReg 0)
  else if 0x8800 ≤ o ∧ o < 0x8880 then
    if o % 8 = 0 then some (rwReg 0x1FFF1FFF 0x01000080) else some (roReg 0)
  else if o = GE_CFG then some (rwReg 0x1FFF0000 0x04000000)
  else if o = GE_STAT ∨ o = MV_TAGS then some (roReg 0)
  else if o = LND_STAT then some (roReg 0x00600000)
  else none

/-- The camera ports, the front end and the triggers (Tables 2.20, 9.2 to 9.4, 14.12). -/
def camInfo (o : Nat) : Option RegInfo :=
  if 0x10000 ≤ o ∧ o < 0x10300 then
    let f := o % 0x40
    if f = 0x00 then some (rwReg 0xF0000000 0)
    else if f ≤ 0x10 then some (roReg 0)
    else none
  else if o = CAM_FE_LANES ∨ o = CAM_FE_BUSY then some (roReg 0)
  else if o = CAM_TBL_SEL then some (rwReg 0x13F 0)
  else if o = CAM_FE_STORE then some (roReg 0)
  else if o = 0x10410 ∨ o = 0x10418 then some (w1cReg 0xFFFFFFFF 0)
  else if o = 0x10414 ∨ o = 0x1041C then some (w1cReg 0x0000FFFF 0)
  else if 0x11000 ≤ o ∧ o < 0x11C00 then camStrInfo (o % 0x40)
  else if 0x1F000 ≤ o ∧ o < 0x1F0C0 then
    if o % 0x10 = 0 then some (rwReg 0x1 0) else some (rwReg 0xFFFFFFFF 0)
  else none

/-- The registers on VDD_FK. -/
def fkInfo (o : Nat) : Option RegInfo :=
  if o = SYNC_POOL then some (rwReg 0x1FFF 0x1000)
  else if o = SYNC_SEL then some (rwReg 0xFFF 0)
  else if o = SYNC_VAL ∨ o = SYNC_ADD ∨ o = SYNC_CFG then some (roReg 0)
  else if o = HANG_CFG then some (rwReg 0x80000000 0x80000000)
  else if o = HANG_STAT ∨ o = HANG_Q_LO ∨ o = HANG_Q_HI then some (roReg 0)
  else if o = LDG_SEL then some (rwReg 0xFF 0)
  else if o = LDG_INUSE ∨ o = LDG_FREE ∨ o = LDG_TOTAL then some (roReg 0)
  else if o = LDG_STAT then some (w1cReg 0x80000000 0)
  else if 0x4000 ≤ o ∧ o < 0x5000 then sqInfo (o % 0x40)
  else if 0x5000 ≤ o ∧ o < 0x5400 then crInfo (o % 0x40)
  else if o = QM_STOPPED_LO ∨ o = QM_STOPPED_HI then some (roReg 0)
  else if o = QM_TDN then some (w1cReg 0x80000000 0)
  else if 0x8000 ≤ o ∧ o < 0xA000 then mvInfo o
  else if 0xA000 ≤ o ∧ o < 0xB000 then dkInfo (o % 0x40)
  else if o = XL_CTX_SEL then some (rwReg 0x3F 0)
  else if o = XL_INV then some (rwReg 0x003F0003 0)
  else if o = XL_INV_VA_LO then some (rwReg 0xFFFF0000 0)
  else if o = 0xC018 then some (rwReg 0x0000FFFF 0)
  else if o = XL_INV_PAGES then some (rwReg 0xFFFFFFFF 0)
  else if o = XL_FQ_BASE_LO then some (rwReg 0xFFFFFFE0 0)
  else if o = XL_FQ_BASE_HI then some (rwReg 0x000FFFFF 0)
  else if o = XL_FQ_SIZE then some (rwReg 0x1FFF 0)
  else if o = XL_FQ_TAIL then some (roReg 0)
  else if o = XL_FQ_HEAD then some (rwReg 0xFFF 0)
  else if o = XL_FQ_STAT ∨ o = XL_FQ_ACT then some (roReg 0)
  else if 0xC100 ≤ o ∧ o < 0xC200 then some (rwReg 0x80000000 0)
  else if 0xC800 ≤ o ∧ o < 0xCA00 then some (rwReg 0xFFFFFFFF 0)
  else if 0x10000 ≤ o ∧ o < 0x20000 then camInfo o
  else if 0x20000 ≤ o ∧ o < 0x20200 then some (roReg 0)
  else if 0x20200 ≤ o ∧ o < 0x20300 then some (roReg 0)
  else if o = CDC_STAT then some (roReg 0)
  else if 0x30000 ≤ o ∧ o < 0x30200 then lsInfo (o - 0x30000)
  else if 0x38000 ≤ o ∧ o < 0x38700 then flInfo (o - 0x38000)
  else if 0x3C000 ≤ o ∧ o < 0x3D200 then tlyInfo (o - 0x3C000)
  else none

/-- Whether an offset's register lies on VDD_AO (R453, Table 1.1; the pace monitors by Table 15.11 KIND 0x10). -/
def isAo (o : Nat) : Bool := (aoInfo o).isSome

/-- The register at an offset, if one is there. -/
def regInfo (o : Nat) : Option RegInfo :=
  match aoInfo o with
  | some i => some i
  | none => fkInfo o

/-- The reset value of the register at an offset (0 where none is there). -/
def regReset (o : Nat) : Word :=
  match regInfo o with
  | some i => i.reset
  | none => 0

/-- The `_LO` registers of the 64-bit pairs (R15, R16); the `_HI` register lies 4 above. -/
def isLo (o : Nat) : Bool :=
  o = GLB_TB_NOW_LO || o = GLB_MERR_ADDR_LO || o = HANG_Q_LO || o = QM_STOPPED_LO || o = 0x8008 ||
  (0x4000 ≤ o && o < 0x5400 && o % 0x40 = 0) ||
  (0xA000 ≤ o && o < 0xB000 && (o % 0x40 = 0x0C || o % 0x40 = 0x14)) ||
  o = XL_INV_VA_LO || o = XL_FQ_BASE_LO || (0xC800 ≤ o && o < 0xCA00 && o % 8 = 0) ||
  o = LS_MEM_BASE_LO || o = LS_STR_START_LO || o = LS_STR_END_LO || o = LS_STR_TRIM_LO ||
  (0x38400 ≤ o && o < 0x38600 && (o % 0x20 = 0x04 || o % 0x20 = 0x10)) ||
  (0x3C000 ≤ o && o < 0x3D000 && o % 0x10 = 0x4)

/-- The `_HI` registers. -/
def isHi (o : Nat) : Bool := 4 ≤ o && isLo (o - 4)

end Sys2Proof.Machine
end

