-- ==== Sys2Proof/Machine/Ops.lean ====
section
/-! DEFINITION. The named operations that the meanings share: bit fields, registers, free values, byte strings, the memories, and the one form in which a command changes the block. -/

namespace Sys2Proof.Machine

/-! Bit fields. -/

/-- Bits [lo + len - 1 : lo] of a bit vector. -/
def bits {n : Nat} (x : BitVec n) (lo len : Nat) : Nat := (x.toNat >>> lo) % 2 ^ len

/-- Bit `i` of a bit vector. -/
def bit {n : Nat} (x : BitVec n) (i : Nat) : Bool := x.getLsbD i

/-- The word with bits [lo + len - 1 : lo] replaced by `v`. -/
def setBits {n : Nat} (x : BitVec n) (lo len v : Nat) : BitVec n :=
  let m := BitVec.ofNat n ((2 ^ len - 1) <<< lo)
  (x &&& ~~~m) ||| (BitVec.ofNat n (v <<< lo) &&& m)

/-- 1 for true. -/
def b2n (p : Bool) : Nat := if p then 1 else 0

/-- The sign extension of the low `n` bits of a number, as an integer. -/
def sext (n v : Nat) : Int := if v % 2 ^ n < 2 ^ (n - 1) then (v % 2 ^ n : Nat) else (v % 2 ^ n : Nat) - (2 ^ n : Nat)

/-- `⌈a ÷ b⌉`. -/
def cdiv (a b : Nat) : Nat := (a + b - 1) / b

/-! Byte strings, little-endian (0.4). -/

/-- The number that bytes spell, the first byte lowest. -/
def leNat : List Byte → Nat
  | [] => 0
  | x :: xs => x.toNat + 256 * leNat xs

/-- The `n` bytes of a number, lowest first. -/
def leBytes : Nat → Nat → List Byte
  | 0, _ => []
  | n + 1, v => BitVec.ofNat 8 v :: leBytes n (v / 256)

/-- `n` bytes from address `a`. -/
def readBytes (f : Nat → Byte) (a : Nat) : Nat → List Byte
  | 0 => []
  | n + 1 => f a :: readBytes f (a + 1) n

/-- One step of CRC-32C (Castagnoli, reflected) over the bits of a byte. -/
def crcBits : Nat → Nat → Nat
  | 0, c => c
  | n + 1, c => crcBits n (if c % 2 = 1 then (c / 2) ^^^ 0x82F63B78 else c / 2)

/-- CRC-32C of a byte string. -/
def crc32c (xs : List Byte) : Nat :=
  (xs.foldl (fun c x => crcBits 8 (c ^^^ x.toNat)) 0xFFFFFFFF) ^^^ 0xFFFFFFFF

/-! Byte memories: a byte that is not listed reads 0 (DESIGN CHOICE, log entry 4). -/

/-- The default of every byte memory. (DESIGN CHOICE, log entry 4) -/
def zeroByte (_ : Nat) : Byte := 0

/-- Read one byte. (DESIGN CHOICE, log entry 4) -/
def memGet (m : SMap Byte) (a : Nat) : Byte := SMap.get zeroByte m a

/-- Write one byte. -/
def memSet (m : SMap Byte) (a : Nat) (v : Byte) : SMap Byte := SMap.set zeroByte m a v

/-- Write bytes at rising addresses. -/
def memWrite (m : SMap Byte) (a : Nat) : List Byte → SMap Byte
  | [] => m
  | v :: vs => memWrite (memSet m a v) (a + 1) vs

/-- `n` bytes of a memory as a number. -/
def memNat (m : SMap Byte) (a n : Nat) : Nat := leNat (readBytes (memGet m) a n)

/-! Updates of the parts of the block. -/

def Block.setAo (b : Block) (f : Ao → Ao) : Block := { b with ao := f b.ao }
def Block.setFk (b : Block) (f : Fk → Fk) : Block := { b with fk := f b.fk }
def Block.setPins (b : Block) (f : Pins → Pins) : Block := { b with pins := f b.pins }
def Block.setBus (b : Block) (f : Bus → Bus) : Block := { b with bus := f b.bus }
def Block.setExt (b : Block) (f : Ext → Ext) : Block := { b with ext := f b.ext }
def Block.setXl (b : Block) (f : Xlate → Xlate) : Block := b.setFk fun k => { k with xl := f k.xl }
def Block.setFlume (b : Block) (f : Flume → Flume) : Block := b.setFk fun k => { k with flume := f k.flume }
def Block.setLs (b : Block) (f : LogStore → LogStore) : Block := b.setFk fun k => { k with ls := f k.ls }

/-! Registers. -/

/-- The stored word of the register at an offset. -/
def Block.reg (b : Block) (o : Nat) : Word :=
  if isAo o then SMap.get regReset b.ao.regs o else SMap.get regReset b.fk.regs o

/-- Store a word in the register at an offset. -/
def Block.setReg (b : Block) (o : Nat) (w : Word) : Block :=
  if isAo o then b.setAo fun a => { a with regs := SMap.set regReset a.regs o w }
  else b.setFk fun k => { k with regs := SMap.set regReset k.regs o w }

/-- A field of a stored register. -/
def Block.rf (b : Block) (o lo len : Nat) : Nat := bits (b.reg o) lo len

/-- A one-bit field of a stored register. -/
def Block.rb (b : Block) (o i : Nat) : Bool := bit (b.reg o) i

/-- Set a field of a stored register. -/
def Block.wf (b : Block) (o lo len v : Nat) : Block := b.setReg o (setBits (b.reg o) lo len v)

/-- Add to a field that saturates at all ones. -/
def Block.satAdd (b : Block) (o lo len n : Nat) : Block := b.wf o lo len (min (b.rf o lo len + n) (2 ^ len - 1))

/-- The 64-bit value of a register pair (R15), given the offset of its `_LO`. -/
def Block.pair (b : Block) (lo : Nat) : Nat := (b.reg lo).toNat + 2 ^ 32 * (b.reg (lo + 4)).toNat

/-- A write to a register that only its own table governs (R13, R14): writable bits take the data, a written 1
clears a write-one-to-clear bit, every other bit stays. -/
def writeBits (i : RegInfo) (old data : Word) : Word :=
  (((old &&& ~~~i.rw) ||| (data &&& i.rw)) &&& ~~~(data &&& i.w1c))

/-- R13 and R14 applied to the register at an offset; an offset without one ignores the write (R65). -/
def Block.writeReg (b : Block) (o : Nat) (data : Word) : Block :=
  match regInfo o with
  | none => b
  | some i => b.setReg o (writeBits i (b.reg o) data)

/-! Free values (DESIGN CHOICE, log entry 2). -/

/-- A value that the spec leaves open. (DESIGN CHOICE, log entry 2) -/
def Block.fresh (b : Block) : Nat := Config.freeNat b.free

/-- The block after one free value has been used. (DESIGN CHOICE, log entry 2) -/
def Block.used (b : Block) : Block := { b with free := b.free + 1 }

/-- One of the candidates; which one is not defined. (DESIGN CHOICE, log entry 2) -/
def Block.pick {α : Type} (b : Block) (cs : List α) : Option α := cs[b.fresh % cs.length]?

/-! The form of a command. -/

/-- The enabled branches that drive `fk_irq` (R404). -/
def Block.summary (b : Block) : Nat :=
  (List.range 9).foldl (fun acc i => if b.reg (INT_CAUSE i) &&& b.reg (INT_EN i) = 0 then acc else acc + 2 ^ i) 0

/-- The interrupt tree has an enabled cause pending (R404). -/
def Block.treePending (b : Block) : Bool := BitVec.ofNat 32 b.summary &&& b.reg INT_TOP_EN != 0

/-- `fk_irq` follows the tree while `fk_hclk` runs, holds its value while it is stopped, and is low in cold reset
(R66). While VDD_AO is out of range the output keeps the free value it took (R452). -/
def settle (b : Block) : Block :=
  if !b.pins.vddAo then b
  else if !b.pins.coldN then b.setPins fun p => { p with irq := false }
  else if b.pins.hclkOn then b.setPins fun p => { p with irq := b.treePending }
  else b

/-- A command changes the block and leaves the queue as it is. (DEDUCED, log entry 5) (DESIGN CHOICE, log entry 75) -/
def State.upd (s : State) (f : Block → Block) : Host.Outcome State Fault Refusal :=
  .next { s with blk := settle (f s.blk) }

/-- Do `f` where the condition holds; else change nothing (DEDUCED, log entry 5). -/
def Block.guard (b : Block) (c : Bool) (f : Block → Block) : Block := if c then f b else b

/-- The VDD_FK units run: the block domain is ready and the control island is defined. -/
def Block.live (b : Block) : Bool := b.pins.vddAo && b.pins.coldN && b.ao.phase = .ready

/-- Do `f` while the VDD_FK units run. (DEDUCED, log entry 5) -/
def Block.whenLive (b : Block) (f : Block → Block) : Block := b.guard b.live f

/-- Fold a change of the block over a list. -/
def Block.each {α : Type} (b : Block) (xs : List α) (f : Block → α → Block) : Block := xs.foldl f b

/-- The latest timebase sample (R70); 0 when the timebase is absent (R44). -/
def Block.now (b : Block) : Nat := if b.ao.straps.tb then b.pair GLB_TB_NOW_LO else 0

/-! The memory side as the block has seen it (R61). -/

/-- DESIGN CHOICE, log entry 7. -/
def Block.xget (b : Block) (a : Nat) : Byte := memGet b.ext.mem a
def Block.xread (b : Block) (a n : Nat) : List Byte := readBytes b.xget a n
def Block.xnat (b : Block) (a n : Nat) : Nat := memNat b.ext.mem a n
/-- DESIGN CHOICE, log entry 7. -/
def Block.xwrite (b : Block) (a : Nat) (xs : List Byte) : Block :=
  b.setExt fun e => { e with mem := memWrite e.mem a xs }

/-! Local memories (Table 5.8, R105, R428). -/

/-- The 6 MiB of a stand. -/
def standBytes : Nat := 6 * 2 ^ 20

/-- The 8 MiB of the landing (R341). -/
def landBytes : Nat := 8 * 2 ^ 20

def Block.sget (b : Block) (stand x : Nat) : Byte := memGet b.fk.scr (stand * standBytes + x)
def Block.swrite (b : Block) (stand x : Nat) (xs : List Byte) : Block :=
  b.setFk fun k => { k with scr := memWrite k.scr (stand * standBytes + x) xs }
def Block.lget (b : Block) (x : Nat) : Byte := memGet b.fk.land x
def Block.lwrite (b : Block) (x : Nat) (xs : List Byte) : Block :=
  b.setFk fun k => { k with land := memWrite k.land x xs }
def Block.pget (b : Block) (x : Nat) : Byte := memGet b.fk.pstore x

/-- A byte memory has its canonical form: addresses strictly rising, no entry equal to what an unlisted address reads as. -/
abbrev Memory.wf (m : SMap Byte) : Bool := SMap.canonical zeroByte m

/-- The byte memories have their canonical form: the memory side, the scratchpads, the landing, the program store and the
dump SRAM. -/
def Block.memsOk (b : Block) : Bool :=
  [b.ext.mem, b.fk.scr, b.fk.land, b.fk.pstore, b.ao.dump].all Memory.wf

/-- The 32-bit word of the program store at a byte offset. -/
def Block.pword (b : Block) (x : Nat) : Word := BitVec.ofNat 32 (memNat b.fk.pstore x 4)

/-! Sets and sparse maps of what exists. -/

/-- The default of a set: not a member. -/
def noneIn (_ : Nat) : Bool := false

def zeroNat (_ : Nat) : Nat := 0

/-- A unit identity of Table 15.3. -/
def unitId (cls idx : Nat) : Nat := cls * 0x1000 + idx

/-- Whether a unit is out of service (R37, R411). -/
def Block.isOut (b : Block) (u : Nat) : Bool := SMap.get noneIn b.ao.out u

/-- The physical stand that carries a logical stand; 0xF when it is out of service (R27). -/
def Block.physStand (b : Block) (s : Nat) : Nat := b.rf SPR_STAND_MAP (4 * s) 4

/-- A logical stand is in service. -/
def Block.standIn (b : Block) (s : Nat) : Bool := s < 8 && b.physStand s != 0xF && !b.isOut (unitId 0x1 s)

/-- How many logical stands are in service. -/
def Block.standsIn (b : Block) : Nat := ((List.range 8).filter b.standIn).length

/-- A tidy core is in service. -/
def Block.coreIn (b : Block) (g : Nat) : Bool := b.standIn (g / 8) && !b.isOut (unitId 0x3 g)

/-- A matrix engine is in service. -/
def Block.engineIn (b : Block) (e : Nat) : Bool := b.standIn (e / 4) && !b.isOut (unitId 0x2 e)

end Sys2Proof.Machine
end

