-- ==== Sys2Proof/Machine/Flags.lean ====
section
/-! DEFINITION. Flags and counts: the cause bits of the interrupt tree (R404 to R406), the tally (R436 to R446), and the values that registers report from unit state. -/

namespace Sys2Proof.Machine

/-! Cause bits (Table 14.11). -/

/-- Set a cause bit; it is set whether or not it is enabled (R405). -/
def Block.cause (b : Block) (branch i : Nat) : Block := b.wf (INT_CAUSE branch) i 1 1

def Block.causeControl (b : Block) (i : Nat) : Block := b.cause 0 i
def Block.causeIntake (b : Block) (i : Nat) : Block := b.cause 1 i
def Block.causeShaping (b : Block) (i : Nat) : Block := b.cause 2 i
def Block.causeMovement (b : Block) (i : Nat) : Block := b.cause 3 i
def Block.causeStorage (b : Block) (i : Nat) : Block := b.cause 4 i
def Block.causeFlume (b : Block) (i : Nat) : Block := b.cause 5 i
def Block.causeFault (b : Block) (i : Nat) : Block := b.cause 6 i
def Block.causeHang (b : Block) (i : Nat) : Block := b.cause 7 i
def Block.causeTally (b : Block) (i : Nat) : Block := b.cause 8 i

/-! The tally. -/

/-- The events of Table 16.1: class B (bytes), whether a queue filter is allowed, the INDEX range below (0 where the
table gives none) and whether 0x3F names all. -/
structure TallyEvent where
  bytes : Bool
  filter : Bool
  units : Nat
  all : Bool
  deriving DecidableEq, Repr

/-- Table 16.1; none for a code it does not list. -/
def tallyEvent : Nat → Option TallyEvent
  | 0x01 => some { bytes := true, filter := false, units := 4, all := true }
  | 0x02 => some { bytes := true, filter := false, units := 4, all := true }
  | 0x03 => some { bytes := true, filter := false, units := 2, all := false }
  | 0x04 => some { bytes := true, filter := false, units := 2, all := false }
  | 0x05 => some { bytes := true, filter := false, units := 8, all := true }
  | 0x06 => some { bytes := true, filter := false, units := 8, all := true }
  | 0x07 => some { bytes := true, filter := false, units := 12, all := true }
  | 0x08 => some { bytes := true, filter := true, units := 17, all := true }
  | 0x09 => some { bytes := true, filter := false, units := 64, all := false }
  | 0x0A => some { bytes := true, filter := true, units := 0, all := true }
  | 0x20 => some { bytes := false, filter := true, units := 0, all := false }
  | 0x21 => some { bytes := false, filter := true, units := 0, all := false }
  | 0x22 => some { bytes := false, filter := true, units := 0, all := false }
  | 0x23 => some { bytes := false, filter := true, units := 0, all := false }
  | 0x24 => some { bytes := false, filter := true, units := 0, all := false }
  | 0x25 => some { bytes := false, filter := true, units := 0, all := false }
  | 0x26 => some { bytes := false, filter := true, units := 32, all := true }
  | 0x27 => some { bytes := false, filter := true, units := 64, all := true }
  | 0x28 => some { bytes := false, filter := true, units := 0, all := true }
  | 0x29 => some { bytes := false, filter := false, units := 48, all := true }
  | 0x2A => some { bytes := false, filter := false, units := 48, all := true }
  | 0x2B => some { bytes := false, filter := true, units := 8, all := false }
  | 0x2C => some { bytes := false, filter := false, units := 0, all := true }
  | 0x31 => some { bytes := false, filter := false, units := 0, all := false }
  | _ => none

/-- The INDEX lies in the event's range (R438). -/
def tallyIndexOk (e : TallyEvent) (i : Nat) : Bool :=
  (e.all && i == 0x3F) || (e.units == 0 && !e.all && i == 0) || i < e.units

/-- The count of a tally counter, 48 bits. -/
def Block.tallyCount (b : Block) (i : Nat) : Nat := SMap.get zeroNat b.fk.tally i

def Block.setTally (b : Block) (i v : Nat) : Block :=
  b.setFk fun k => { k with tally := SMap.set zeroNat k.tally i v }

/-- A counter wraps: its TLY_WRAP bit and the WRAP cause are set (R439). -/
def Block.tallyWrap (b : Block) (i : Nat) : Block := (b.wf (TLY_WRAP (i / 32)) (i % 32) 1 1).causeTally 0

/-- Whether counter `i` is the low half of a chained pair (R440). -/
def Block.tallyChained (b : Block) (i : Nat) : Bool := i % 2 == 0 && b.rb (TLY_CFG (i + 1)) 30

/-- Add to a counter that counts: a class B counter wraps, a class E counter saturates, and a chained pair counts
as one 96-bit value (R439, R440). -/
def Block.tallyBump (b : Block) (i inc : Nat) (bytes : Bool) : Block :=
  if b.tallyChained i then
    let v := b.tallyCount i + 2 ^ 48 * b.tallyCount (i + 1) + inc
    if v < 2 ^ 96 then (b.setTally i (v % 2 ^ 48)).setTally (i + 1) (v / 2 ^ 48)
    else if bytes then ((b.setTally i (v % 2 ^ 48)).setTally (i + 1) (v % 2 ^ 96 / 2 ^ 48)).tallyWrap i
    else (b.setTally i (2 ^ 48 - 1)).setTally (i + 1) (2 ^ 48 - 1)
  else
    let v := b.tallyCount i + inc
    if v < 2 ^ 48 then b.setTally i v
    else if bytes then (b.setTally i (v % 2 ^ 48)).tallyWrap i
    else b.setTally i (2 ^ 48 - 1)

/-- Counter `i` counts an occurrence of `event` in unit `index` for queue `sq`; INDEX 0x3F stands for all units where the
event allows it (R436, R437, R442). -/
def Block.tallyTakes (b : Block) (event index : Nat) (sq : Option Nat) (i : Nat) : Bool :=
  let c := b.reg (TLY_CFG i)
  bit c 31 && !(i % 2 == 1 && bit c 30) && bits c 0 8 == event &&
    (bits c 16 6 == index || (bits c 16 6 == 0x3F && (tallyEvent event).any (·.all))) && (!bit c 29 || sq == some (bits c 22 6))

/-- The window port that a class B event counts for (Table 16.3). -/
def windowPort (event index : Nat) : Option Nat :=
  if event = 0x01 then some index
  else if event = 0x02 then some (4 + index)
  else if event = 0x03 then some (8 + 2 * index)
  else if event = 0x04 then some (9 + 2 * index)
  else if event = 0x05 then some 12
  else if event = 0x06 then some 13
  else if event = 0x07 then some 14
  else none

/-- One occurrence reaches the tally and the bandwidth windows (R436, R445). (DEDUCED, log entry 72) -/
def Block.tally (b : Block) (event index : Nat) (sq : Option Nat) (inc : Nat) : Block :=
  let b := if b.rb TLY_CTRL 31 then b else
    b.each ((List.range 256).filter (b.tallyTakes event index sq)) fun b i =>
      b.tallyBump i inc (match tallyEvent event with | some e => e.bytes | none => false)
  match windowPort event index with
  | none => b
  | some p => if b.rb TLY_WIN 31 then
      b.setFk fun k => { k with window := SMap.set zeroNat k.window p (SMap.get zeroNat k.window p + inc) }
    else b

end Sys2Proof.Machine
end

