-- ==== Sys2Proof/Machine/Operands.lean ====
section
/-! DEFINITION. The operand forms of the commands: the words of a thread instruction (Table 5.2), the fields of a submission entry (Table 14.2) and of a program header (Table 4.1), the registers of a thread (Table 5.1), and the buffers of the booms (12.3). -/

namespace Sys2Proof.Machine

/-! First words of the instruction formats (Table 5.2). -/

def wordR (major fn : Nat) (f : RForm) : Nat :=
  major * 2 ^ 26 + f.d.toNat * 2 ^ 21 + f.a.toNat * 2 ^ 16 + f.b.toNat * 2 ^ 11 + fn * 2 ^ 5 + f.w.toNat * 2 ^ 3 + f.p.toNat
def wordI (major fn : Nat) (f : IForm) : Nat :=
  major * 2 ^ 26 + f.d.toNat * 2 ^ 21 + f.a.toNat * 2 ^ 16 + fn * 2 ^ 12 + f.imm.toNat
def wordM (major fn : Nat) (f : MForm) : Nat :=
  major * 2 ^ 26 + f.d.toNat * 2 ^ 21 + f.a.toNat * 2 ^ 16 + fn * 2 ^ 13 + f.imm.toNat
def wordVM (major : Nat) (f : VMForm) : Nat :=
  major * 2 ^ 26 + f.d.toNat * 2 ^ 21 + f.a.toNat * 2 ^ 16 + f.p.toNat * 2 ^ 13 + f.imm.toNat
def wordB (major cond : Nat) (f : BForm) : Nat :=
  major * 2 ^ 26 + f.a.toNat * 2 ^ 21 + f.b.toNat * 2 ^ 16 + cond * 2 ^ 13 + f.off.toNat
def wordJ (major : Nat) (f : JForm) : Nat := major * 2 ^ 26 + f.d.toNat * 2 ^ 21 + f.off.toNat
def wordS (major fn : Nat) (f : SForm) : Nat :=
  major * 2 ^ 26 + f.sh.toNat * 2 ^ 25 + f.cr.toNat * 2 ^ 20 + f.ctr.toNat * 2 ^ 8 + f.v.toNat * 2 ^ 3 + fn
def wordLI (f : LIForm) : Nat := 0x04 * 2 ^ 26 + f.d.toNat * 2 ^ 21 + f.h.toNat * 2 ^ 20 + f.lo.toNat
def wordT (major : Nat) (f : TForm) : Nat :=
  major * 2 ^ 26 + f.op.toNat * 2 ^ 21 + f.ta.toNat * 2 ^ 17 + f.tb.toNat * 2 ^ 13 + f.tc.toNat * 2 ^ 9 +
    f.sx.toNat * 2 ^ 4 + f.md.toNat

/-! Fields of a submission entry (Table 14.2). -/

def entTag (e : BitVec 512) : Nat := bits e 0 16
def entOpcode (e : BitVec 512) : Nat := bits e 16 8
def entFlags (e : BitVec 512) : Nat := bits e 24 8
def entNocomp (e : BitVec 512) : Bool := bit e 24
def entIrq (e : BitVec 512) : Bool := bit e 25
def entGate (e : BitVec 512) : Bool := bit e 26
def entSig (e : BitVec 512) : Bool := bit e 27
def entOwn (e : BitVec 512) : Bool := bit e 63
def entProg (e : BitVec 512) : Nat := bits e 0x40 32
def entDeck (e : BitVec 512) : Nat := bits e 0x60 32
def entArg (e : BitVec 512) : Nat := bits e 0x80 64
def entFrag (e : BitVec 512) : Nat := bits e 0xC0 64
def entGateCtr (e : BitVec 512) : Nat := bits e 0x100 12
def entGateVal (e : BitVec 512) : Nat := bits e 0x120 32
def entSigCtr (e : BitVec 512) : Nat := bits e 0x140 12
def entSigInc (e : BitVec 512) : Nat := if bits e 0x160 32 = 0 then 1 else bits e 0x160 32

/-! Fields of a program header (Table 4.1). -/

def hdrMagic (h : BitVec 512) : Nat := bits h 0 32
def hdrPatch (h : BitVec 512) : Nat := bits h 0x20 8
def hdrMinor (h : BitVec 512) : Nat := bits h 0x28 8
def hdrMajor (h : BitVec 512) : Nat := bits h 0x30 16
def hdrCode (h : BitVec 512) : Nat := bits h 0x40 32
def hdrThreads (h : BitVec 512) : Nat := bits h 0x60 13
def hdrMinconc (h : BitVec 512) : Nat := bits h 0x70 13
def hdrSync (h : BitVec 512) : Nat := bits h 0x80 9
def hdrScrBase (h : BitVec 512) : Nat := bits h 0xA0 32
def hdrScrSize (h : BitVec 512) : Nat := bits h 0xC0 32
def hdrEntry (h : BitVec 512) : Nat := bits h 0xE0 32

/-- The bits of the header that Table 4.1 reserves are 0. -/
def hdrReservedZero (h : BitVec 512) : Bool :=
  hdrPatch h == 0 && bits h 0x6D 3 == 0 && bits h 0x7D 3 == 0 && bits h 0x89 23 == 0 && bits h 0x100 256 == 0

/-- Two ranges given by start and length share a byte. -/
def overlaps (a la b lb : Nat) : Bool := a < b + lb && b < a + la && 0 < la && 0 < lb

/-! Registers of a thread (Table 5.1). -/

def zeroD (_ : Nat) : Dword := 0
def zeroV (_ : Nat) : VecReg := 0

/-- sN: s0 reads 0 (R131). -/
def Thread.sc (t : Thread) (i : BitVec 5) : Dword := if i = 0 then 0 else SMap.get zeroD t.s i.toNat

/-- Write sN: a write to s0 is discarded (R131). -/
def Thread.setSc (t : Thread) (i : BitVec 5) (v : Dword) : Thread :=
  if i = 0 then t else { t with s := SMap.set zeroD t.s i.toNat v }

def Thread.vec (t : Thread) (i : BitVec 5) : VecReg := SMap.get zeroV t.v i.toNat
def Thread.setVec (t : Thread) (i : BitVec 5) (v : VecReg) : Thread := { t with v := SMap.set zeroV t.v i.toNat v }
def Thread.pr (t : Thread) (i : BitVec 5) : Dword := SMap.get zeroD t.p i.toNat
def Thread.setPr (t : Thread) (i : BitVec 5) (v : Dword) : Thread := { t with p := SMap.set zeroD t.p i.toNat v }

/-- A field that names a vector register or a handle is legal (R132). -/
def vecOk (i : BitVec 5) : Bool := i.toNat < 16

/-- A field that names a predicate register is legal (R132). -/
def prOk (i : BitVec 5) : Bool := i.toNat < 8

/-- The governing predicate P (Table 5.2): 0 means every element active. -/
def Thread.gov (t : Thread) (p : BitVec 3) : Dword := if p = 0 then BitVec.allOnes 64 else SMap.get zeroD t.p p.toNat

/-- The logical stand of a thread number (R26). -/
def standOf (th : Nat) : Nat := th / 512

/-- The logical tidy core of a thread number (R26). -/
def coreOf (th : Nat) : Nat := th / 64

def Block.findThread (b : Block) (th : Nat) : Option Thread := SMap.find b.fk.threads th
def Block.findJob (b : Block) (j : Nat) : Option Job := SMap.find b.fk.jobs j
def Block.findCmd (b : Block) (id : Nat) : Option Cmd := SMap.find b.fk.cmds id
def Block.setThread (b : Block) (th : Nat) (t : Thread) : Block :=
  b.setFk fun k => { k with threads := SMap.put k.threads th t }
def Block.setJob (b : Block) (j : Nat) (x : Job) : Block := b.setFk fun k => { k with jobs := SMap.put k.jobs j x }
def Block.modJob (b : Block) (j : Nat) (f : Job → Job) : Block :=
  b.setFk fun k => { k with jobs := SMap.modify k.jobs j f }
def Block.setCmd (b : Block) (id : Nat) (c : Cmd) : Block := b.setFk fun k => { k with cmds := SMap.put k.cmds id c }
def Block.modCmd (b : Block) (id : Nat) (f : Cmd → Cmd) : Block :=
  b.setFk fun k => { k with cmds := SMap.modify k.cmds id f }

/-- The next serial number of a job or command (DESIGN CHOICE, log entry 2), and the block that has used it. -/
def Block.nextId (b : Block) : Nat := b.fk.nextId
def Block.bumpId (b : Block) : Block := b.setFk fun k => { k with nextId := k.nextId + 1 }

/-- Commands of a unit in the order they were issued. -/
def Block.cmdsOf (b : Block) (p : Cmd → Bool) : List (Nat × Cmd) := b.fk.cmds.filter fun e => p e.2

/-- A thread's commands outstanding (R159). -/
def Block.inflight (b : Block) (job jidx : Nat) : Nat :=
  SMap.count b.fk.cmds fun _ c => c.job == job && c.jidx == jidx

/-! Boom buffers (12.3). A buffer is named by its boom, its place (a logical stand, or 8 for the landing) and its
index in the place. -/

/-- The place number of the landing. -/
def landPlace : Nat := 8

def bufKey (k place i : Nat) : Nat := (k * 16 + place) * 2 ^ 15 + i
def keyBoom (key : Nat) : Nat := key / 2 ^ 19
def keyPlace (key : Nat) : Nat := key / 2 ^ 15 % 16
def keyIndex (key : Nat) : Nat := key % 2 ^ 15

/-- The size of boom k's buffers. -/
def boomSize (k : Nat) : Nat := 256 * 4 ^ k

def Block.boomStands (b : Block) (k : Nat) : Bool := b.rb (BOOM_CFG k) 31
def Block.boomCount (b : Block) (k : Nat) : Nat := b.rf (BOOM_CFG k) 16 15
def Block.boomBase (b : Block) (k : Nat) : Nat := b.rf (BOOM_CFG k) 0 16 * 1024

/-- SRAM macros fenced in a range of macro numbers (R36); they are spare state (R38). (DESIGN CHOICE, log entry 46) -/
def Block.fencedIn (b : Block) (lo hi : Nat) : Nat := SMap.count b.ao.fenced fun m v => v && lo ≤ m && m < hi

/-- LIMIT of LND_STAT: usable landing below staging, in 64 KiB units (R343, Table 12.4). -/
def Block.landUnits (b : Block) : Nat := 0x60 - 4 * b.fencedIn 216 248

/-- The usable landing below staging, in bytes (R343). -/
def Block.landLimit (b : Block) : Nat := b.landUnits * 2 ^ 16

/-- The store of the pixel front end (Table 1.1, R257), less what fenced Intake macros take (R36).
(DEDUCED, log entry 65) -/
def Block.feStore (b : Block) : Nat := 2 ^ 20 - 2 ^ 18 * b.fencedIn 248 264

def Block.boomHolder (b : Block) (key : Nat) : Option Holder := SMap.find b.fk.booms.held key

/-- The buffer of a key is in service: a landing buffer below LIMIT, a stand buffer of a stand in service. -/
def Block.bufIn (b : Block) (key : Nat) : Bool :=
  let k := keyBoom key
  if keyPlace key = landPlace then b.boomBase k + (keyIndex key + 1) * boomSize k ≤ b.landLimit
  else b.standIn (keyPlace key)

/-- The places of boom k. -/
def Block.boomPlaces (b : Block) (k : Nat) : List Nat :=
  if b.boomStands k then List.range 8 else [landPlace]

/-- The buffers of boom k in one place. -/
def Block.boomAt (b : Block) (k place : Nat) : List Nat := (List.range (b.boomCount k)).map (bufKey k place)

/-- The free buffers of boom k in one place. -/
def Block.boomFreeAt (b : Block) (k place : Nat) : List Nat :=
  (b.boomAt k place).filter fun key => b.bufIn key && (b.boomHolder key).isNone

/-- FREE of boom k (R339). -/
def Block.boomFree (b : Block) (k : Nat) : Nat := ((b.boomPlaces k).map fun p => (b.boomFreeAt k p).length).sum

/-- IN_USE of boom k (R339). -/
def Block.boomInUse (b : Block) (k : Nat) : Nat := SMap.count b.fk.booms.held fun key _ => keyBoom key == k

/-- TOTAL of boom k: a buffer out of service is withdrawn when it is returned (R335, R343, R423). -/
def Block.boomTotal (b : Block) (k : Nat) : Nat := b.boomFree k + b.boomInUse k

/-- The local address of a buffer (Table 5.8). -/
def Block.bufAddr (b : Block) (key : Nat) : Nat :=
  let x := b.boomBase (keyBoom key) + keyIndex key * boomSize (keyBoom key)
  if keyPlace key = landPlace then 0x40000000 + x else 0x20000000 + x

/-- A watermark is reached: it is enabled and FREE has fallen to it (R337). -/
def Block.boomAtLevel (b : Block) (o k : Nat) : Bool := b.rf o 0 18 ≠ 0 && b.boomFree k ≤ b.rf o 0 18

/-- LOW and WARN_HIT after FREE of boom k changed from `old` (R337, Table 12.3). (DEDUCED, log entry 55) -/
def Block.boomChanged (b : Block) (k old : Nat) : Block :=
  let free := b.boomFree k
  let b := if free < b.rf (BOOM_STAT k) 0 18 then b.wf (BOOM_STAT k) 0 18 free else b
  let w := b.rf (BOOM_WARN k) 0 18
  if w ≠ 0 ∧ free ≤ w ∧ w < old then (b.wf (BOOM_STAT k) 31 1 1).causeMovement 2 else b

/-- Lend a buffer. -/
def Block.boomTake (b : Block) (key : Nat) (h : Holder) : Block :=
  let old := b.boomFree (keyBoom key)
  (b.setFk fun f => { f with booms := { f.booms with held := SMap.put f.booms.held key h } }).boomChanged
    (keyBoom key) old

/-- Take a buffer back, without serving the waiters yet. -/
def Block.boomDrop (b : Block) (key : Nat) : Block :=
  let old := b.boomFree (keyBoom key)
  (b.setFk fun f => { f with booms := { f.booms with held := SMap.erase f.booms.held key } }).boomChanged
    (keyBoom key) old

/-- The candidate buffer lists of an allocation of `size` bytes by a thread of stand `st`, smallest boom first
(R336): the landing, and the thread's own stand. -/
def Block.allocLists (b : Block) (size st : Nat) : List (List Nat) :=
  ((List.range 8).filter fun k => size ≤ boomSize k).map fun k =>
    b.boomFreeAt k (if b.boomStands k then st else landPlace)

/-- The free buffers of the first candidate that has one (R336). (DEDUCED, log entry 55) -/
def Block.allocFrom (b : Block) (size st : Nat) : List Nat :=
  match (b.allocLists size st).find? (fun l => !l.isEmpty) with
  | some l => l
  | none => []

/-- The job of a holder. -/
def heldBy (b : Block) (h : Holder) : List Nat := SMap.keys (SMap.keep b.fk.booms.held fun _ x => x == h)

/-! Local addresses (Table 5.8). -/

/-- The memory that a local address reaches: the thread's job region, its stand, or the landing. -/
inductive Local where
  | stand (s x : Nat)
  | landing (x : Nat)
  deriving DecidableEq, Repr

/-- The byte `x` of a place lies inside a boom buffer that the job holds. -/
def Block.inHeld (b : Block) (job place x n : Nat) : Bool :=
  b.fk.booms.held.any fun e => e.2 == .job job && keyPlace e.1 == place &&
    let base := b.boomBase (keyBoom e.1) + keyIndex e.1 * boomSize (keyBoom e.1)
    base ≤ x && x + n ≤ base + boomSize (keyBoom e.1)

/-- The boom region of a place that holds every byte of `n` bytes at `x`, counting buffers of the job that lie side
by side (R142: the whole of every access must lie in a permitted range). -/
def Block.inHeldBytes (b : Block) (job place x : Nat) : Nat → Bool
  | 0 => true
  | n + 1 => b.inHeld job place x 1 && b.inHeldBytes job place (x + 1) n

/-- Where `n` bytes at a local address lie, if the whole of the access lies in a permitted range (R142, Table 5.8). -/
def Block.local? (b : Block) (j : Nat) (job : Job) (stand a n : Nat) : Option Local :=
  if a + n ≤ hdrScrSize job.header * 1024 then some (.stand stand (hdrScrBase job.header * 1024 + a))
  else if 0x20000000 ≤ a ∧ a + n ≤ 0x20000000 + standBytes then
    if b.inHeld j stand (a - 0x20000000) n || b.inHeldBytes j stand (a - 0x20000000) n then
      some (.stand stand (a - 0x20000000))
    else none
  else if 0x40000000 ≤ a ∧ a + n ≤ 0x40000000 + landBytes then
    if b.inHeld j landPlace (a - 0x40000000) n || b.inHeldBytes j landPlace (a - 0x40000000) n then
      some (.landing (a - 0x40000000))
    else none
  else none

/-- Read one byte of a local place. -/
def Block.locGet (b : Block) (l : Local) (i : Nat) : Byte :=
  match l with
  | .stand s x => b.sget s (x + i)
  | .landing x => b.lget (x + i)

/-- Read `n` bytes. -/
def Block.locRead (b : Block) (l : Local) (n : Nat) : List Byte := readBytes (b.locGet l) 0 n

/-- Write bytes from the place on, at byte offset `i`. -/
def Block.locWrite (b : Block) (l : Local) (i : Nat) (xs : List Byte) : Block :=
  match l with
  | .stand s x => b.swrite s (x + i) xs
  | .landing x => b.lwrite (x + i) xs

/-- A bit vector of the bytes read from a local place. -/
def Block.locBits (b : Block) (l : Local) (n : Nat) : Nat := leNat (b.locRead l n)

end Sys2Proof.Machine
end

