-- ==== Sys2Proof/Machine/Port.lean ====
section
/-! DEFINITION. An access of the register port (R64, R65, R452): where it is answered, refused or held, and the staging of 64-bit pairs (R15). -/

namespace Sys2Proof.Machine

/-- What becomes of an access (R65, R452). -/
inductive PortCase where
  | never
  | hold
  | fail
  | go
  deriving DecidableEq, Repr

/-- The identity registers, which answer even in cold reset (R4, R65). -/
def isIdentity (o : Nat) : Bool := o < 0x10

/-- Dump SRAM, on VDD_AO (R428). -/
def isDumpWindow (o : Nat) : Bool := 0x80000 ≤ o && o < 0xC0000

/-- The program-store window (R105). -/
def isPstoreWindow (o : Nat) : Bool := 0xC0000 ≤ o && o < 0x100000

/-- The pipeline-table window (R268). -/
def isTableWindow (o : Nat) : Bool := 0x1E000 ≤ o && o < 0x1E400

/-- The stand debug windows, by physical stand (R26, Table 4.5). -/
def isStandWindow (o : Nat) : Bool := 0x40000 ≤ o && o < 0x64000

/-- The offset reaches something on VDD_AO. -/
def onAo (o : Nat) : Bool := isAo o || isDumpWindow o

/-- The offset reaches something on VDD_FK. -/
def onFk (o : Nat) : Bool :=
  !isAo o && ((fkInfo o).isSome || isPstoreWindow o || isTableWindow o || isStandWindow o)

/-- The registers of a subsystem's units (Tables 1.1 and 4.5); triggers follow the block domain alone (R278). -/
def subsystemOwns (s o : Nat) : Bool :=
  match s with
  | 1 => (0x10000 ≤ o && o < 0x1F000) || (0x20000 ≤ o && o < 0x38000)
  | 2 => isStandWindow o
  | 3 => (0x8000 ≤ o && o < 0x10000) || (0x38000 ≤ o && o < 0x3C000)
  | _ => false

/-- The registers of a unit of Table 15.3. -/
def unitOwns (u o : Nat) : Bool :=
  if u / 0x1000 = 0x8 then subsystemOwns (u % 0x1000) o
  else if u / 0x1000 = 0x5 then
    let i := u % 0x1000
    if i < 12 then 0x10000 + 0x40 * i ≤ o && o < 0x10040 + 0x40 * i
    else if i = 33 then 0x20000 ≤ o && o < 0x20200
    else if i = 34 then 0x20200 ≤ o && o < 0x20300
    else if 40 ≤ i ∧ i < 48 then o = LS_CH (i - 40)
    else false
  else if u / 0x1000 = 0x6 then
    let i := u % 0x1000
    if i < 16 then o = SKD_CFG i || o = SKD_STAT i
    else if i = 16 then o = GE_CFG || o = GE_STAT
    else if i = 17 then 0xC000 ≤ o && o < 0x10000
    else if i = 18 then 0x8000 ≤ o && o < 0x8800
    else if i = 28 ∨ i = 29 then 0x38000 ≤ o && o < 0x3C000
    else false
  else false

/-- The unit that an offset targets is under a reset smaller than the block. -/
def Block.unitInReset (b : Block) (o : Nat) : Bool := b.ao.rst.any fun r => unitOwns r.unit o

/-- The outcome of an access to an offset (R4, R65, R452). (DEDUCED, log entry 10) -/
def Block.portCase (b : Block) (o : Nat) : PortCase :=
  if !b.pins.vddAo then .never
  else if !b.pins.hclkOn then .hold
  else if isIdentity o then .go
  else if onAo o then (if b.pins.coldN then .go else .fail)
  else if onFk o then (if b.live && !b.unitInReset o then .go else .fail)
  else .go

/-- Acknowledge an access. -/
def Block.answer (b : Block) (rdata : Word) (err : Bool) : Block :=
  b.setBus fun u => { u with ack := true, rdata := rdata, err := err }

/-- A write of the register port whose effect, where it has one, is `f` (R64, R65): a write that ends with
`fk_h_err` 1 has no effect. -/
def Block.portWrite (b : Block) (o : Nat) (data : Word) (f : Block → Block) : Block :=
  match b.portCase o with
  | .never => b.setBus fun u => { u with ack := false }
  | .hold => b.setBus fun u =>
      { u with ack := false, held := u.held ++ [{ write := true, off := BitVec.ofNat 20 o, data := data }] }
  | .fail => b.answer 0 true
  | .go => (f b).answer 0 false

/-- A read of the register port that returns `v` and leaves the block as `f` does (R16). -/
def Block.portRead (b : Block) (o : Nat) (v : Word) (f : Block → Block) : Block :=
  match b.portCase o with
  | .never => b.setBus fun u => { u with ack := false }
  | .hold => b.setBus fun u =>
      { u with ack := false, held := u.held ++ [{ write := false, off := BitVec.ofNat 20 o, data := 0 }] }
  | .fail => b.answer 0 true
  | .go => (f b).answer v false

def zeroW (_ : Nat) : Word := 0

/-- Stage the value of a `_LO` register (R15). -/
def Block.stageLo (b : Block) (lo : Nat) (data : Word) : Block :=
  b.setFk fun k => { k with stage := SMap.put k.stage lo data }

/-- The `_LO` value that the next write of `_HI` commits (R15). -/
def Block.stagedLo (b : Block) (lo : Nat) : Word :=
  match SMap.find b.fk.stage lo with
  | some v => v
  | none => b.reg lo

/-- Commit a pair (R15): the staged `_LO` value and the new `_HI` value together. -/
def Block.commitPair (b : Block) (lo : Nat) (data : Word) : Block :=
  ((b.writeReg lo (b.stagedLo lo)).writeReg (lo + 4) data).setFk fun k => { k with stage := SMap.erase k.stage lo }

end Sys2Proof.Machine
end

