-- ==== Sys2Proof/Machine/Domains.lean ====
section
/-! DEFINITION. Reset domains (R413, R414, Tables 15.3 and 15.5): what an identity names, which domain contains which unit, and what is under a reset. -/

namespace Sys2Proof.Machine

def unitClass (u : Nat) : Nat := u / 0x1000
def unitIdx (u : Nat) : Nat := u % 0x1000

/-- The block's identity, and those of the subsystems. -/
def blockUnit : Nat := unitId 0xF 0
def intakeUnit : Nat := unitId 0x8 1
def shapingUnit : Nat := unitId 0x8 2
def movementUnit : Nat := unitId 0x8 3

/-- The domain code whose unit an identity names; 0 for a unit that no reset smaller than the block names, 6 for no unit
of the block (Tables 15.3 and 15.5). -/
def domainOf (u : Nat) : Nat :=
  let i := unitIdx u
  match unitClass u with
  | 0x0 => if i ≤ 5 then 0 else 6
  | 0x1 => if i < 8 then 3 else 6
  | 0x2 => if i < 32 then 2 else 6
  | 0x3 => if i < 64 then 2 else 6
  | 0x4 => 1
  | 0x5 => if i < 12 ∨ (16 ≤ i ∧ i ≤ 24) ∨ (32 ≤ i ∧ i ≤ 34) ∨ (40 ≤ i ∧ i ≤ 48) then 2 else 6
  | 0x6 => if i ≤ 18 ∨ (20 ≤ i ∧ i ≤ 29) then 2 else 6
  | 0x7 => if i < 280 then 0 else 6
  | 0x8 => if 1 ≤ i ∧ i ≤ 3 then 4 else 6
  | 0x9 => if i = 0 then 0 else 6
  | 0xF => if i = 0 then 5 else 6
  | _ => 6

/-- The logical stand that contains a unit. -/
def standOfUnit (u : Nat) : Option Nat :=
  match unitClass u with
  | 0x1 => some (unitIdx u)
  | 0x2 => some (unitIdx u / 4)
  | 0x3 => some (unitIdx u / 8)
  | 0x4 => some (unitIdx u / 512)
  | _ => none

/-- The domain of unit `u` contains unit `v` (R414). -/
def domainHas (u v : Nat) : Bool :=
  u == v || match unitClass u with
    | 0x1 => 2 ≤ unitClass v && standOfUnit v == some (unitIdx u)
    | 0x3 => unitClass v == 0x4 && unitIdx v / 64 == unitIdx u
    | 0x8 =>
      if u = intakeUnit then unitClass v == 0x5
      else if u = shapingUnit then (standOfUnit v).isSome
      else unitClass v == 0x6
    | 0xF => true
    | _ => false

/-- A unit is under a reset smaller than the block. -/
def Block.underReset (b : Block) (v : Nat) : Bool := b.ao.rst.any fun r => domainHas r.unit v

/-- A Movement subsystem reset is in progress. -/
def Block.movementReset (b : Block) : Bool := b.ao.rst.any fun r => r.unit == movementUnit

/-- The block domain is in reset (DOMAIN_RST). -/
def Block.inReset (b : Block) : Bool := b.ao.phase == .entering || b.ao.phase == .held

/-- The logical stand that a physical stand carries (R27). -/
def Block.standAt (b : Block) (p : Nat) : Option Nat := (List.range 8).find? fun s => b.physStand s == p

/-! What the spare registers report (Tables 1.10 and 1.11). -/

/-- SPR_INVENTORY, its counts as the units stand. -/
def Block.sprInventory (b : Block) : Word :=
  let engines := ((List.range 32).filter fun e => !b.engineIn e).length
  let cores := ((List.range 64).filter fun g => !b.coreIn g).length
  setBits (setBits (b.reg SPR_INVENTORY) 8 8 engines) 0 8 cores

/-- SPR_SRAM. -/
def Block.sprSram (b : Block) : Word :=
  BitVec.ofNat 32 ((b.ao.repairs.map fun e => e.2).sum * 2 ^ 16 + b.fencedIn 0 280)

end Sys2Proof.Machine
end

