-- ==== Sys2Proof/Machine/Islands.lean ====
section
/-! DEFINITION. The islands of the pace monitors (R80, R87, Table 3.1): which are off, and what PACE[i] reports of them. -/

namespace Sys2Proof.Machine

/-! Islands (Table 3.1). -/

def islandCount : Nat := 248

/-- A unit is out of service or under a reset. -/
def Block.unitOff (b : Block) (u : Nat) : Bool := b.isOut u || b.underReset u

/-- An island of physical stand `p` is off: its stand carries no logical stand, or the engine or core there is off. A core
that a donor stands in for is out itself, and a lent donor core is in service (R34, R35). -/
def Block.standIslandOff (b : Block) (p j : Nat) : Bool :=
  match b.standAt p with
  | some s =>
    !b.standIn s || b.underReset (unitId 0x1 s) ||
      (j < 4 && b.unitOff (unitId 0x2 (4 * s + j))) ||
      (4 ≤ j && j < 12 &&
        (b.unitOff (unitId 0x3 (8 * s + (j - 4))) || (SMap.find b.ao.donors (8 * s + (j - 4))).isSome))
  | none =>
    !(p == 8 && 4 ≤ j && j < 12 && b.ao.donors.any fun e => e.2 == j - 4 && !b.unitOff (unitId 0x3 e.1))

/-- An island of Intake, Movement or Control is off; one that holds several units is off while all of them are.
(DESIGN CHOICE, log entry 94) -/
def Block.fixedIslandOff (b : Block) (i : Nat) : Bool :=
  if i < 192 then b.unitOff (unitId 0x5 (i - 180))
  else if i < 201 then !b.ao.lanes.getLsbD (i - 192) || b.underReset (unitId 0x5 (16 + (i - 192)))
  else if i = 201 then b.unitOff (unitId 0x5 32)
  else if i < 210 then b.unitOff (unitId 0x5 33)
  else if i = 210 then b.unitOff (unitId 0x5 34)
  else if i < 219 then b.unitOff (unitId 0x5 (40 + (i - 211)))
  else if i = 219 then b.unitOff (unitId 0x5 48)
  else if i < 224 then (List.range 4).all fun k => b.unitOff (unitId 0x6 (4 * (i - 220) + k))
  else if i < 227 then b.unitOff (unitId 0x6 (16 + (i - 224)))
  else if i < 231 then b.unitOff (unitId 0x6 (20 + (i - 227)))
  else if i < 235 then b.unitOff (unitId 0x6 (24 + (i - 231)))
  else if i < 237 then b.unitOff (unitId 0x6 (28 + (i - 235)))
  else false

/-- An island is unpowered, in reset or out of service (R87). (DEDUCED, log entry 18) -/
def Block.islandOff (b : Block) (i : Nat) : Bool :=
  if 243 ≤ i then false
  else !b.pins.vddFk || b.inReset || (if i < 180 then b.standIslandOff (i / 20) (i % 20) else b.fixedIslandOff i)

/-- Every island that is off is marked: the window in progress is lost for it (R87). (DEDUCED, log entry 18) -/
def Block.markOff (b : Block) : Block :=
  b.each ((List.range islandCount).filter b.islandOff) fun b i => (b.wf (PACE i) 31 1 0).wf (PACE i) 30 1 1

/-- PACE[i] as it reads: VALID 0 and OFF 1 while the island is off (R87). -/
def Block.paceWord (b : Block) (i : Nat) : Word :=
  let off := b.islandOff i
  setBits (setBits (b.reg (PACE i)) 31 1 (b2n (b.rb (PACE i) 31 && !off))) 30 1 (b2n off)

end Sys2Proof.Machine
end

