-- ==== Sys2Proof/Machine/Sync.lean ====
section
/-! DEFINITION. The sync counters (4.2): signal, wait, lending, and the host's accesses. -/

namespace Sys2Proof.Machine

/-- A counter that nothing has used. -/
def ctrZero (_ : Nat) : Counter := { value := 0, epoch := 0, owner := 0, lent := none }

def Block.counter (b : Block) (n : Nat) : Counter := SMap.get ctrZero b.fk.counters n
def Block.setCounter (b : Block) (n : Nat) (c : Counter) : Block :=
  b.setFk fun k => { k with counters := SMap.set ctrZero k.counters n c }

/-- SYNC_POOL.SHARED_BASE. -/
def Block.sharedBase (b : Block) : Nat := b.rf SYNC_POOL 0 13

/-- R107: the value minus the target, read as a signed 32-bit number, is 0 or more. -/
def reached (value target : BitVec 32) : Bool := !(value - target).msb

/-- A waiting thread whose counter has reached its target goes on past its WAIT (R107). -/
def Thread.released (t : Thread) (n : Nat) (value : BitVec 32) : Thread :=
  match t.hold with
  | .wait c target => if c = n ∧ reached value target then { t with hold := .none, pc := t.pc + 4 } else t
  | _ => t

/-- Release the threads that wait on counter `n`. -/
def Block.releaseWaiters (b : Block) (n : Nat) : Block :=
  b.setFk fun k => { k with threads := SMap.mapVals k.threads fun _ t => t.released n (b.counter n).value }

/-- Add to a counter, whatever its epoch. -/
def Block.addCounter (b : Block) (n inc : Nat) : Block :=
  (b.setCounter n { b.counter n with value := (b.counter n).value + BitVec.ofNat 32 inc }).releaseWaiters n

/-- R107, R109: a signal adds to its counter when its epoch is the counter's, and is otherwise refused and counted by
the tally alone. -/
def Block.signal (b : Block) (n inc : Nat) (ep : Byte) (sq : Nat) : Block :=
  if (b.counter n).epoch = ep then b.addCounter n inc else b.tally 0x25 0 (some sq) 1

/-- A pool counter is lent. -/
def Block.poolLent (b : Block) : Bool := b.fk.counters.any fun e => e.1 < b.sharedBase && e.2.lent.isSome

/-- The pool counters that are free (R108). -/
def Block.poolFree (b : Block) : List Nat :=
  (List.range b.sharedBase).filter fun n => (b.counter n).lent.isNone

/-- Lend `n` free pool counters to a job: value 0, the job's epoch; which ones is not defined (R108). OWNER_SQ becomes 0.
(DESIGN CHOICE, log entry 81) -/
def Block.lend (b : Block) (job : Nat) (ep : Byte) : Nat → Block × List Nat
  | 0 => (b, [])
  | n + 1 =>
    match b.pick b.poolFree with
    | none => (b, [])
    | some c =>
      let r := (b.used.setCounter c { value := 0, epoch := ep, owner := 0, lent := some job }).lend job ep n
      (r.1, c :: r.2)

/-- Take back the counters of a job (R103). -/
def Block.unlend (b : Block) (cs : List Nat) : Block :=
  b.each cs fun b c => b.setCounter c { b.counter c with lent := none }

/-- The counter that an instruction of a job names, if it may (R108, R147). -/
def Block.resolveCtr (b : Block) (job : Job) (sh : BitVec 1) (n : Nat) : Option Nat :=
  if sh = 0 then (if n < hdrSync job.header then job.lent[n]? else none)
  else if b.sharedBase ≤ n ∧ n ≤ 4095 then some n
  else none

/-- The producer of a counter (R111): OWNER_SQ of a shared counter, the queue of the job that holds a pool counter. -/
def Block.producer (b : Block) (n : Nat) : Option Nat :=
  if b.sharedBase ≤ n then some (b.counter n).owner
  else match (b.counter n).lent with
    | none => none
    | some j => (b.findJob j).map (·.sq)

/-- The counter that SYNC_SEL selects, where it is shared (R110). -/
def Block.selShared (b : Block) (f : Nat → Block) : Block :=
  let n := b.rf SYNC_SEL 0 12
  if b.sharedBase ≤ n then f n else b

/-- A SYNC_ADD write (R110). -/
def Block.syncAdd (b : Block) (data : Word) : Block := b.selShared fun n => b.addCounter n data.toNat

/-- A SYNC_VAL write (R110). -/
def Block.syncVal (b : Block) (data : Word) : Block :=
  b.selShared fun n => (b.setCounter n { b.counter n with value := data }).releaseWaiters n

/-- A SYNC_CFG write (R111, Table 4.4). -/
def Block.syncCfg (b : Block) (data : Word) : Block :=
  b.selShared fun n => b.setCounter n { b.counter n with owner := bits data 16 6, epoch := BitVec.ofNat 8 (bits data 0 8) }

/-- A SHARED_BASE write (R112). -/
def Block.syncPool (b : Block) (data : Word) : Block :=
  if b.poolLent then b else b.wf SYNC_POOL 0 13 (min (bits data 0 13) 0x1000)

/-- SYNC_ADD_WRITE (R110). -/
def execSyncAddWrite (data : Word) (s : State) : Host.Outcome State Fault Refusal :=
  s.upd fun b => b.portWrite SYNC_ADD data (·.syncAdd data)

/-- SYNC_VAL_WRITE (R110). -/
def execSyncValWrite (data : Word) (s : State) : Host.Outcome State Fault Refusal :=
  s.upd fun b => b.portWrite SYNC_VAL data (·.syncVal data)

/-- SYNC_CFG_WRITE (R110, R111). -/
def execSyncCfgWrite (data : Word) (s : State) : Host.Outcome State Fault Refusal :=
  s.upd fun b => b.portWrite SYNC_CFG data (·.syncCfg data)

/-- SYNC_POOL_WRITE (R112). -/
def execSyncPoolWrite (data : Word) (s : State) : Host.Outcome State Fault Refusal :=
  s.upd fun b => b.portWrite SYNC_POOL data (·.syncPool data)

end Sys2Proof.Machine
end

