-- ==== Sys2Proof/Machine/Fp.lean ====
section
/-! DEFINITION. Floating-point arithmetic (R140): a value is a NaN, an infinity or a sign, an integer and a power of two; every operation is exact and rounds once, to nearest even. -/

namespace Sys2Proof.Machine

/-- A floating-point value: `fin s m e` is (−1)^s × m × 2^e. -/
inductive Fp where
  | nan
  | inf (s : Bool)
  | fin (s : Bool) (m : Nat) (e : Int)
  deriving DecidableEq, Repr

/-- A binary format by its exponent and fraction widths. -/
structure Fmt where
  eb : Nat
  mb : Nat
  deriving DecidableEq, Repr

def bf16 : Fmt := { eb := 8, mb := 7 }
def fp16 : Fmt := { eb := 5, mb := 10 }
def fp32 : Fmt := { eb := 8, mb := 23 }

def Fmt.bias (f : Fmt) : Int := 2 ^ (f.eb - 1) - 1
def Fmt.width (f : Fmt) : Nat := 1 + f.eb + f.mb
def Fmt.infCode (f : Fmt) : Nat := (2 ^ f.eb - 1) * 2 ^ f.mb

/-- The canonical NaN of a format (R140). -/
def Fmt.nanCode (f : Fmt) : Nat := f.infCode + 2 ^ (f.mb - 1)

/-- The value that a code of the format stands for. -/
def Fmt.decode (f : Fmt) (x : Nat) : Fp :=
  let s := x / 2 ^ (f.eb + f.mb) % 2 = 1
  let ex := x / 2 ^ f.mb % 2 ^ f.eb
  let fr := x % 2 ^ f.mb
  if ex = 2 ^ f.eb - 1 then (if fr = 0 then .inf s else .nan)
  else if ex = 0 then .fin s fr (1 - f.bias - f.mb)
  else .fin s (2 ^ f.mb + fr) ((ex : Int) - f.bias - f.mb)

/-- `m / 2^k` rounded to nearest even. -/
def rneShift (m k : Nat) : Nat :=
  let q := m / 2 ^ k
  let r := m % 2 ^ k
  if 2 * r < 2 ^ k then q else if 2 ^ k < 2 * r then q + 1 else q + q % 2

/-- The code of m × 2^e without its sign, rounded to nearest even, in a format that goes on past its largest value. -/
def Fmt.magnitude (f : Fmt) (m : Nat) (e : Int) : Nat :=
  if m = 0 then 0
  else
    let emin : Int := 1 - f.bias
    let top : Int := e + (Nat.log2 m : Int)
    let q : Int := max top emin - f.mb
    let mant := if q ≤ e then m * 2 ^ (e - q).toNat else rneShift m (q - e).toNat
    if top < emin then mant else ((top + f.bias).toNat) * 2 ^ f.mb + mant - 2 ^ f.mb

/-- The sign bit of a format's code. -/
def Fmt.signCode (f : Fmt) (s : Bool) : Nat := b2n s * 2 ^ (f.eb + f.mb)

/-- The code of a value, rounded to nearest even; too large a value becomes an infinity. -/
def Fmt.encode (f : Fmt) (v : Fp) : Nat :=
  match v with
  | .nan => f.nanCode
  | .inf s => f.signCode s + f.infCode
  | .fin s m e => f.signCode s + min (f.magnitude m e) f.infCode

/-- A signed integer as a value. -/
def Fp.ofInt (n : Int) : Fp := .fin (n < 0) n.natAbs 0

def Fp.isNan : Fp → Bool
  | .nan => true
  | _ => false

def Fp.neg : Fp → Fp
  | .nan => .nan
  | .inf s => .inf (!s)
  | .fin s m e => .fin (!s) m e

/-- The integer of a finite value counted in units of 2^e. -/
def scaled (s : Bool) (m : Nat) (e e0 : Int) : Int :=
  let v : Int := (m * 2 ^ (e - e0).toNat : Nat)
  if s then -v else v

/-- Exact sum. -/
def Fp.add : Fp → Fp → Fp
  | .nan, _ => .nan
  | _, .nan => .nan
  | .inf s, .inf t => if s = t then .inf s else .nan
  | .inf s, _ => .inf s
  | _, .inf t => .inf t
  | .fin s m e, .fin t n g =>
    let e0 := min e g
    let v := scaled s m e e0 + scaled t n g e0
    if v = 0 then .fin (s && t) 0 e0 else .fin (v < 0) v.natAbs e0

/-- Exact product. -/
def Fp.mul : Fp → Fp → Fp
  | .nan, _ => .nan
  | _, .nan => .nan
  | .inf s, .inf t => .inf (s != t)
  | .inf s, .fin t n _ => if n = 0 then .nan else .inf (s != t)
  | .fin s m _, .inf t => if m = 0 then .nan else .inf (s != t)
  | .fin s m e, .fin t n g => .fin (s != t) (m * n) (e + g)

/-- Quotient with 80 fraction bits and a sticky bit below them, which rounds as the exact quotient does. -/
def Fp.div : Fp → Fp → Fp
  | .nan, _ => .nan
  | _, .nan => .nan
  | .inf _, .inf _ => .nan
  | .inf s, .fin t _ _ => .inf (s != t)
  | .fin s _ _, .inf t => .fin (s != t) 0 0
  | .fin s m e, .fin t n g =>
    if n = 0 then (if m = 0 then .nan else .inf (s != t))
    else
      let num := m * 2 ^ (80 + Nat.log2 n)
      .fin (s != t) (2 * (num / n) + b2n (num % n ≠ 0)) (e - g - 81 - (Nat.log2 n : Int))

/-- Square root with a sticky bit; `Nat.sqrt` by bisection over `n` bits. -/
def sqrtBits : Nat → Nat → Nat → Nat
  | 0, _, r => r
  | n + 1, m, r => let c := r + 2 ^ n; sqrtBits n m (if c * c ≤ m then c else r)

def Fp.sqrt : Fp → Fp
  | .nan => .nan
  | .inf s => if s then .nan else .inf false
  | .fin s m e =>
    if m = 0 then .fin s 0 0
    else if s then .nan
    else
      let k : Int := if e % 2 = 0 then 100 else 101
      let n := m * 2 ^ k.toNat
      let r := sqrtBits (Nat.log2 n / 2 + 1) n 0
      .fin false (2 * r + b2n (r * r ≠ n)) ((e - k) / 2 - 1)

/-- Signed comparison of two values that are not NaN; −0 equals +0. -/
def Fp.lt : Fp → Fp → Bool
  | .nan, _ => false
  | _, .nan => false
  | .inf s, .inf t => s && !t
  | .inf s, .fin _ _ _ => s
  | .fin _ _ _, .inf t => !t
  | .fin s m e, .fin t n g => let e0 := min e g; scaled s m e e0 < scaled t n g e0

def Fp.eq : Fp → Fp → Bool
  | .nan, _ => false
  | _, .nan => false
  | .inf s, .inf t => s == t
  | .inf _, .fin _ _ _ => false
  | .fin _ _ _, .inf _ => false
  | .fin s m e, .fin t n g => let e0 := min e g; scaled s m e e0 == scaled t n g e0

/-- The sign bit of a value. -/
def Fp.sign : Fp → Bool
  | .nan => false
  | .inf s => s
  | .fin s _ _ => s

/-- minimumNumber of IEEE 754-2019 (R140): the number when one operand is a NaN, −0 below +0. (DEDUCED, log entry 23) -/
def Fp.minNum (a b : Fp) : Fp :=
  if a.isNan then b else if b.isNan then a
  else if a.lt b then a else if b.lt a then b else if a.sign then a else b

/-- maximumNumber of IEEE 754-2019 (R140). (DEDUCED, log entry 23) -/
def Fp.maxNum (a b : Fp) : Fp :=
  if a.isNan then b else if b.isNan then a
  else if a.lt b then b else if b.lt a then a else if a.sign then b else a

/-- The integer nearest to a finite value, ties to even. -/
def rneInt (s : Bool) (m : Nat) (e : Int) : Int :=
  let v : Int := if 0 ≤ e then (m * 2 ^ e.toNat : Nat) else (rneShift m (-e).toNat : Nat)
  if s then -v else v

/-- The largest integer not above a finite value. -/
def floorInt (s : Bool) (m : Nat) (e : Int) : Int := scaled s m (max e 0) 0 |> fun v =>
  if 0 ≤ e then v else (if s then -(m : Int) else (m : Int)) / (2 ^ (-e).toNat : Nat)

/-- Clamp an integer. -/
def clampInt (lo hi v : Int) : Int := if v < lo then lo else if hi < v then hi else v

/-- Round a value to a signed integer of `n` bits, saturating; a NaN gives 0 (Table 5.6). -/
def Fp.toInt (n : Nat) (v : Fp) : Int :=
  let lo : Int := -(2 ^ (n - 1) : Nat)
  let hi : Int := (2 ^ (n - 1) : Nat) - 1
  match v with
  | .nan => 0
  | .inf s => if s then lo else hi
  | .fin s m e => clampInt lo hi (rneInt s m e)

/-- Round a value to an unsigned integer of `n` bits, saturating; a NaN gives 0. -/
def Fp.toUint (n : Nat) (v : Fp) : Int :=
  let hi : Int := (2 ^ n : Nat) - 1
  match v with
  | .nan => 0
  | .inf s => if s then 0 else hi
  | .fin s m e => clampInt 0 hi (rneInt s m e)

/-! FP32 arithmetic on rounded values: each operation rounds once. -/

/-- A value rounded to a format. -/
def Fmt.round (f : Fmt) (v : Fp) : Fp := f.decode (f.encode v)

def f32 (v : Fp) : Fp := fp32.round v
def f32add (a b : Fp) : Fp := f32 (a.add b)
def f32sub (a b : Fp) : Fp := f32 (a.add b.neg)
def f32mul (a b : Fp) : Fp := f32 (a.mul b)
def f32div (a b : Fp) : Fp := f32 (a.div b)
def f32fma (d a b : Fp) : Fp := f32 (d.add (a.mul b))

/-- A natural number rounded to FP32. -/
def f32nat (n : Nat) : Fp := f32 (Fp.ofInt n)

/-- `m × 2^e` as an FP32 constant. -/
def f32con (m : Nat) (e : Int) : Fp := f32 (.fin false m e)

/-- |x × a − 1| is at most 2^−12, for finite values. -/
def nearOne (v : Fp) : Bool :=
  match v.add (Fp.ofInt (-1)) with
  | .fin _ m e => !(Fp.fin false 1 (-12)).lt (.fin false m e)
  | _ => false

/-- (1 − 2^−12)² ≤ v ≤ (1 + 2^−12)². -/
def nearOneSq (v : Fp) : Bool :=
  !(v.lt (.fin false (4095 * 4095) (-24))) && !((Fp.fin false (4097 * 4097) (-24)).lt v)

/-- The mantissa is a power of two. -/
def isPow2 (m : Nat) : Bool := m ≠ 0 && m = 2 ^ Nat.log2 m

/-- VFRCP (R140): exact for powers of two, else any value within 2^−12: `cand` where it is, the nearest value of the
format otherwise. (DEDUCED, log entry 23) -/
def rcpCode (f : Fmt) (x cand : Nat) : Nat :=
  let v := f.decode x
  let best := f.encode ((Fp.ofInt 1).div v)
  match v with
  | .fin _ m _ =>
    if m = 0 ∨ isPow2 m then best
    else if nearOne ((f.decode (cand % 2 ^ f.width)).mul v) then cand % 2 ^ f.width else best
  | _ => best

/-- VFRSQ (R140): as VFRCP; a negative number has no square root, so it gives a NaN. (DEDUCED, log entry 23) -/
def rsqCode (f : Fmt) (x cand : Nat) : Nat :=
  let v := f.decode x
  let best := f.encode ((Fp.ofInt 1).div v.sqrt)
  match v with
  | .fin s m e =>
    if m = 0 ∨ s ∨ (isPow2 m ∧ (e + (Nat.log2 m : Int)) % 2 = 0) then best
    else
      let c := f.decode (cand % 2 ^ f.width)
      if !c.sign && nearOneSq ((c.mul c).mul v) then cand % 2 ^ f.width else best
  | _ => best

end Sys2Proof.Machine
end

