-- ==== Sys2Proof/Machine/CamCore.lean ====
section
/-! DEFINITION. Camera streams as the other units see them: the configuration of a frame (R255, R256, R262), the entries of a stream (R274), admission (R261), and the boom waiters that admission shares with BALLOC (R336). -/

namespace Sys2Proof.Machine

/-- The configuration after reset (Table 9.3). -/
def CamCfg.reset : CamCfg :=
  { fmt := 0xAC400000, size := 0x04380780, win := 0, wsize := 0x04380780, boom := 6, ae := 0x00607530 }

/-- A stream after reset. -/
def camNew (_ : Nat) : CamStream :=
  { active := CamCfg.reset, loop := { gainR := 0, gainB := 0, dgain := 0, exp := 0, skip := 0, seeds := true }, started := 0,
    entries := [], dropping := none }

def Block.str (b : Block) (s : Nat) : CamStream := SMap.get camNew b.fk.cam s
def Block.setStr (b : Block) (s : Nat) (x : CamStream) : Block :=
  b.setFk fun k => { k with cam := SMap.set camNew k.cam s x }
def Block.modStr (b : Block) (s : Nat) (f : CamStream → CamStream) : Block := b.setStr s (f (b.str s))

def CAM_CTRL (s : Nat) : Nat := CAM_STR s 0x00
def CAM_DROPS (s : Nat) : Nat := CAM_STR s 0x38
def CAM_STAT (s : Nat) : Nat := CAM_STR s 0x3C

def Block.strEn (b : Block) (s : Nat) : Bool := s < 48 && b.rb (CAM_CTRL s) 31

def CamCfg.dt (c : CamCfg) : Nat := bits c.fmt 26 6
def CamCfg.cfa (c : CamCfg) : Nat := bits c.fmt 24 2
def CamCfg.out (c : CamCfg) : Nat := bits c.fmt 20 4
def CamCfg.dxc (c : CamCfg) : Nat := bits c.fmt 18 2
def CamCfg.dyc (c : CamCfg) : Nat := bits c.fmt 16 2
def CamCfg.dx (c : CamCfg) : Nat := 2 ^ c.dxc
def CamCfg.dy (c : CamCfg) : Nat := 2 ^ c.dyc
def CamCfg.inH (c : CamCfg) : Nat := bits c.size 16 16
def CamCfg.inW (c : CamCfg) : Nat := bits c.size 0 16
def CamCfg.y0 (c : CamCfg) : Nat := bits c.win 16 16
def CamCfg.x0 (c : CamCfg) : Nat := bits c.win 0 16
def CamCfg.winH (c : CamCfg) : Nat := bits c.wsize 16 16
def CamCfg.winW (c : CamCfg) : Nat := bits c.wsize 0 16
def CamCfg.pool (c : CamCfg) : Nat := bits c.boom 0 3
def CamCfg.aeEn (c : CamCfg) : Bool := bit c.ae 31
def CamCfg.awbEn (c : CamCfg) : Bool := bit c.ae 30
def CamCfg.tgtY (c : CamCfg) : Nat := bits c.ae 16 8
def CamCfg.expMax (c : CamCfg) : Nat := if bits c.ae 0 16 = 0 then 65535 else bits c.ae 0 16
def CamCfg.wOut (c : CamCfg) : Nat := c.winW / c.dx
def CamCfg.hOut (c : CamCfg) : Nat := c.winH / c.dy

/-- A raw data type of Table 9.1. -/
def isRaw (dt : Nat) : Bool := 0x2A ≤ dt && dt ≤ 0x2E

/-- An image data type of Table 9.1. -/
def isImageDt (dt : Nat) : Bool := isRaw dt || dt == 0x1E || dt == 0x24

/-- Bits of one pixel of a data type (Table 9.1). (PRESUMED, log entry 42) -/
def dtBits (dt : Nat) : Nat :=
  if dt = 0x2A then 8 else if dt = 0x2B then 10 else if dt = 0x2C then 12 else if dt = 0x2D then 14
  else if dt = 0x2E then 16 else if dt = 0x1E then 16 else if dt = 0x24 then 24 else 0

/-- Bytes of an image line as received and packed. -/
def CamCfg.lineBytes (c : CamCfg) : Nat := cdiv (c.inW * dtBits c.dt) 8

/-- DT and OUTFMT form a pair that R267 allows. -/
def CamCfg.pairOk (c : CamCfg) : Bool :=
  (isRaw c.dt && c.out ≤ 5) || (c.dt == 0x24 && 1 ≤ c.out && c.out ≤ 5) || (c.dt == 0x1E && (c.out == 3 || c.out == 4))

/-- R256. -/
def CamCfg.valid (c : CamCfg) : Bool :=
  16 ≤ c.inW && c.inW ≤ 8192 && 16 ≤ c.inH && c.inH ≤ 8192 &&
  c.x0 + c.winW ≤ c.inW && c.y0 + c.winH ≤ c.inH &&
  c.dxc ≠ 3 && c.dyc ≠ 3 && c.winW % c.dx == 0 && c.winH % c.dy == 0 &&
  (!(c.out == 4 || c.out == 5) || (c.wOut % 2 == 0 && c.hOut % 2 == 0)) &&
  (c.out ≠ 0 || (c.dxc == 0 && c.dyc == 0)) && c.pairOk

/-- Components, width, height and element bytes of a plane (Table 9.6); none where the format has no such plane. -/
def CamCfg.plane (c : CamCfg) (n : Nat) : Option (Nat × Nat × Nat × Nat) :=
  match c.out, n with
  | 0, 0 => some (1, c.winW, c.winH, 2)
  | 1, 0 => some (3, c.wOut, c.hOut, 1)
  | 2, 0 => some (3, c.wOut, c.hOut, 2)
  | 3, 0 => some (1, c.wOut, c.hOut, 1)
  | 4, 0 => some (1, c.wOut, c.hOut, 1)
  | 4, 1 => some (2, c.wOut / 2, c.hOut / 2, 1)
  | 5, 0 => some (1, c.wOut, c.hOut, 2)
  | 5, 1 => some (2, c.wOut / 2, c.hOut / 2, 2)
  | _, _ => none

/-- Bytes of a plane; 0 where there is none. -/
def CamCfg.planeBytes (c : CamCfg) (n : Nat) : Nat :=
  match c.plane n with
  | some (k, w, h, e) => k * w * h * e
  | none => 0

/-- The buffers of a frame (R262). -/
def CamCfg.buffers (c : CamCfg) : Nat :=
  cdiv (c.planeBytes 0) (boomSize c.pool) + cdiv (c.planeBytes 1) (boomSize c.pool)

/-- STORE of an enabled stream (R257). -/
def CamCfg.store (c : CamCfg) : Nat :=
  2048 + 4 * 2112 + (if c.out = 4 ∨ c.out = 5 then 4 * c.wOut else 0) + (if 1 < c.dy then 12 * c.wOut else 0)

/-- The frame number of an entry's first frame. -/
def Entry.first : Entry → Nat
  | .frame f => f.fno
  | .drops n _ _ => n

/-- Consecutive drops join one run, with the status of its lowest frame (R274). -/
def joinDrops : List Entry → List Entry
  | [] => []
  | e :: es =>
    match e, joinDrops es with
    | .drops n l s, .drops m k t :: rest =>
      if (n + l) % 2 ^ 32 = m then .drops n (l + k) s :: rest else .drops n l s :: .drops m k t :: rest
    | e, rest => e :: rest

/-- A frame of a stream by its serial number. -/
def Block.frameOf (b : Block) (s id : Nat) : Option Frame :=
  (b.str s).entries.findSome? fun e => match e with
    | .frame f => if f.id = id then some f else none
    | .drops _ _ _ => none

/-- Change one frame of a stream. -/
def CamStream.modFrame (x : CamStream) (id : Nat) (f : Frame → Frame) : CamStream :=
  { x with entries := x.entries.map fun e => match e with
      | .frame g => if g.id = id then .frame (f g) else e
      | .drops _ _ _ => e }

/-- The frame that is being received: the last frame, while its Frame End has not come. -/
def CamStream.current (x : CamStream) : Option Frame :=
  match x.entries.getLast? with
  | some (.frame f) => if f.ended then none else some f
  | _ => none

/-- The oldest frame that waits unadmitted. -/
def CamStream.waiting (x : CamStream) : Option Frame :=
  x.entries.findSome? fun e => match e with
    | .frame f => if f.admitted then none else some f
    | .drops _ _ _ => none

/-- Frames admitted and not yet released (HELD). -/
def CamStream.held (x : CamStream) : Nat :=
  (x.entries.filter fun e => match e with
    | .frame f => f.admitted
    | .drops _ _ _ => false).length

/-- Frame age exceeds STALE_US (R70, R261); never while the timebase is absent (R44) or the limit is 0. -/
def Block.isStale (b : Block) (s : Nat) (f : Frame) : Bool :=
  let lim := (b.reg (CAM_STR s 0x1C)).toNat
  b.ao.straps.tb && lim ≠ 0 && lim * 1000 < b.now - f.stamp.toNat

/-- A thread holds in BALLOC. -/
def Thread.inBalloc (t : Thread) : Bool :=
  match t.hold with
  | .balloc _ _ => true
  | _ => false

/-- A boom waiter still waits: a frame that is not admitted, or a thread held in BALLOC. -/
def Block.stillWaits (b : Block) (w : Waiter) : Bool :=
  match w with
  | .frame s id => ((b.frameOf s id).map fun f => !f.admitted).getD false
  | .thread th => ((b.findThread th).map Thread.inBalloc).getD false

/-- Drop waiters that wait no longer. -/
def Block.tidyWaiters (b : Block) : Block :=
  b.setFk fun k => { k with booms := { k.booms with waiters := k.booms.waiters.filter b.stillWaits } }

/-- The place that grants a frame's buffers (R336): the landing, or the stand with the most free buffers, the lower
number on a tie. (DEDUCED, log entry 55) -/
def Block.framePlace (b : Block) (k : Nat) : Nat :=
  if b.boomStands k then
    (List.range 8).foldl (fun best p =>
      if (b.boomFreeAt k best).length < (b.boomFreeAt k p).length then p else best) 0
  else landPlace

/-- Lend `n` buffers of one place. Which of the free ones is not defined (R336). (DEDUCED, log entry 55) -/
def Block.takeMany (b : Block) (k place : Nat) (h : Holder) : Nat → Block × List Nat
  | 0 => (b, [])
  | n + 1 =>
    match b.pick (b.boomFreeAt k place) with
    | none => (b, [])
    | some key =>
      let r := (b.used.boomTake key h).takeMany k place h n
      (r.1, key :: r.2)

/-- Admit one waiting frame, where R261 allows it. -/
def Block.admitOne (b : Block) (s : Nat) : Block :=
  let x := b.str s
  match x.waiting with
  | none => b
  | some f =>
    let k := f.cfg.pool
    let place := b.framePlace k
    if b.strEn s && x.held < 4 && !b.boomAtLevel (BOOM_HOLD k) k &&
        f.cfg.buffers ≤ (b.boomFreeAt k place).length then
      let r := b.takeMany k place (.frame s f.id) f.cfg.buffers
      r.1.modStr s fun x => x.modFrame f.id fun g =>
        { g with admitted := true, bufs := r.2, loop := x.loop, seeded := x.loop.seeds }
    else b

/-- The admission check of a stream, for as many waiting frames as it admits (R261). -/
def Block.admitFour (b : Block) (s : Nat) : Block := (b.each (List.range 4) fun b _ => b.admitOne s).tidyWaiters

/-- Grant a buffer to a thread held in BALLOC, where one is free now (R336). -/
def Block.grantThread (b : Block) (th : Nat) : Block :=
  match b.findThread th with
  | none => b
  | some t =>
    match t.hold with
    | .balloc d size =>
      match b.pick (b.allocFrom size (standOf th)) with
      | none => b
      | some key =>
        let a := b.bufAddr key
        ((b.used.boomTake key (.job t.job)).setThread th
          { (t.setSc (BitVec.ofNat 5 d) (BitVec.ofNat 64 a)) with hold := .none, pc := t.pc + 4 }).tidyWaiters
    | _ => b

/-- A waiting frame is served in its turn, once every earlier frame of its stream is (R261). -/
def Block.admitFrame (b : Block) (s id : Nat) : Block :=
  b.guard (((b.str s).waiting.map fun f => f.id) == some id) fun b => (b.admitOne s).tidyWaiters

/-- Serve the boom waiters, oldest first (R336). (DEDUCED, log entry 55) -/
def Block.serveBooms (b : Block) : Block :=
  b.each b.fk.booms.waiters fun b w => match w with
    | .frame s id => b.admitFrame s id
    | .thread th => b.grantThread th

/-- Return buffers and serve the waiters. -/
def Block.giveBack (b : Block) (keys : List Nat) : Block := (b.each keys Block.boomDrop).serveBooms

/-- Drop a frame whole with a status (R274): it joins the drop runs, and its buffers are returned. -/
def Block.dropFrame (b : Block) (s id status : Nat) : Block :=
  match b.frameOf s id with
  | none => b
  | some f =>
    let b := b.modStr s fun x =>
      { x with
        entries := joinDrops (x.entries.map fun e => match e with
          | .frame g => if g.id = id then .drops g.fno 1 status else e
          | .drops _ _ _ => e)
        dropping := if f.ended then x.dropping else some f.wc }
    let b := b.tally 0x29 s none 1
    let b :=
      if status = 0x04 then b.satAdd (CAM_DROPS s) 0 16 1
      else if status = 0x06 then b.satAdd (CAM_DROPS s) 16 16 1
      else b
    b.tidyWaiters.giveBack f.bufs

/-- A frame leaves its stream after a TAKE (R276). -/
def Block.releaseFrame (b : Block) (s id : Nat) : Block :=
  match b.frameOf s id with
  | none => b
  | some f =>
    let b := b.modStr s fun x => { x with entries := x.entries.filter fun e => match e with
      | .frame g => g.id ≠ id
      | .drops _ _ _ => true }
    (b.tally 0x2A s none 1).giveBack f.bufs

end Sys2Proof.Machine
end

