-- ==== Sys2Proof/Machine/Exec.lean ====
section
/-! DEFINITION. How a thread issues an instruction: the fetch check (R137), exceptions (R160 to R162), and the end of a thread or a job (R153, R161). -/

namespace Sys2Proof.Machine

/-- The exception causes of Table 5.16. -/
def excIllegal : Nat := 1
def excFetch : Nat := 2
def excAlign : Nat := 3
def excAccess : Nat := 4
def excCounter : Nat := 5
def excHandle : Nat := 6
def excTrap : Nat := 7

/-- The job status of an exception (Table 5.16): PROTECT_FAULT for ACCESS, MALFORMED for the others. -/
def excStatus (cause : Nat) : Nat := if cause = excAccess then 0x12 else 0x10

/-- End a job (R161 steps 1 and 2): its threads stop and the rest do not start. Its boom buffers stay its own until it
completes (R150, R339). The first cause decides the status (R396). -/
def Block.endJob (b : Block) (j status : Nat) : Block :=
  match b.findJob j with
  | none => b
  | some job =>
    if job.ended.isSome then b
    else
      let b := b.setJob j { job with ended := some status }
      let b := b.setFk fun k => { k with threads := SMap.keep k.threads fun _ t => t.job ≠ j }
      b.tidyWaiters

/-- Capture an exception (R162). (DEDUCED, log entry 26) -/
def Block.captureExc (b : Block) (th : Nat) (t : Thread) (job : Job) (cause word : Nat) : Block :=
  let b :=
    if b.rb GLB_EXC_STAT 31 then b.wf GLB_EXC_STAT 30 1 1
    else
      let b := b.setReg GLB_EXC_STAT (BitVec.ofNat 32
        (2 ^ 31 + 2 ^ 30 * b.rf GLB_EXC_STAT 30 1 + cause * 2 ^ 24 + job.sq * 2 ^ 16 + entTag job.entry))
      let b := b.setReg GLB_EXC_THR (BitVec.ofNat 32 (t.jidx * 2 ^ 16 + th))
      let b := b.setReg GLB_EXC_PC (BitVec.ofNat 32 ((entProg job.entry + t.pc.toNat) % 2 ^ 20))
      b.setReg GLB_EXC_WORD (BitVec.ofNat 32 (if cause = excFetch then 0 else word))
  (b.satAdd GLB_EXC_COUNT 0 16 1).causeControl 19

/-- An instruction of thread `th` raises an exception (R160, R161): it has no other effect, and its job ends.
(DEDUCED, log entry 26) -/
def Block.raise (b : Block) (th : Nat) (t : Thread) (job : Job) (cause word : Nat) : Block :=
  (b.captureExc th t job cause word).endJob t.job (excStatus cause)

/-- What an instruction does: it raises an exception, it waits in issue for room in a unit and keeps what it has read
(R152, R159), or it leaves its thread as `t` and the block as `f` makes it. -/
inductive IRes where
  | raise (cause : Nat)
  | stall (x : Issue)
  | done (t : Thread) (f : Block → Block)

/-- Past an instruction of `len` bytes (R135). -/
def Thread.adv (t : Thread) (len : Nat) : Thread := { t with pc := t.pc + BitVec.ofNat 20 len }

/-- The thread goes on after an instruction that changes registers alone. -/
def Thread.next (t : Thread) : IRes := .done (t.adv 4) id

/-- A jump (R137): a target outside 0 to 2^20 − 1 raises FETCH at the jump. -/
def Thread.jump (t : Thread) (target : Int) : IRes :=
  if 0 ≤ target ∧ target < 2 ^ 20 then .done { t with pc := BitVec.ofNat 20 target.toNat } id else .raise excFetch

/-- The whole instruction lies in the code of its image (R137). (DEDUCED, log entry 22) -/
def fetchOk (job : Job) (t : Thread) (len : Nat) : Bool :=
  64 ≤ t.pc.toNat && t.pc.toNat + len ≤ 64 + hdrCode job.header

/-- A thread may issue: it holds nothing, or it holds in the queue of a full unit and this is its tensor
instruction again (R157, R159). -/
def Thread.mayIssue (t : Thread) (tensor : Bool) : Bool := t.hold == .none || (tensor && t.hold == .unit)

/-- Thread `th` issues an instruction of `len` bytes whose first word is `word`; `act` is its effect. A number that
names no running thread, and a thread that holds, issue nothing (DEDUCED, log entry 5). (DEDUCED, log entry 22) -/
def Block.issueInstr (b : Block) (th word len : Nat) (tensor : Bool) (act : Job → Thread → IRes) : Block :=
  b.whenLive fun b =>
    match b.findThread th with
    | none => b
    | some t =>
      match b.findJob t.job with
      | none => b
      | some job =>
        if t.mayIssue tensor then
          if fetchOk job t len then
            match act job t with
            | .raise cause => b.raise th t job cause word
            | .stall x => b.setThread th { t with hold := .unit, issue := some x }
            | .done t' f => f ((b.setThread th t').tally 0x27 (coreOf th) (some job.sq) 1)
          else b.raise th t job excFetch 0
        else b

/-- An instruction other than tensor issue. -/
def Block.instr (b : Block) (th word len : Nat) (act : Job → Thread → IRes) : Block := b.issueInstr th word len false act

/-- A thread ends (R153): its slot is free, its tensor commands continue. -/
def Block.endThread (b : Block) (th : Nat) : Block := b.setFk fun k => { k with threads := SMap.erase k.threads th }

end Sys2Proof.Machine
end

