-- ==== Sys2Proof/Machine/Scalar.lean ====
section
/-! DEFINITION. Scalar and system instructions (R138, Tables 5.4 and 5.7's scalar moves excepted), LI and control flow (R137, Table 5.10). -/

namespace Sys2Proof.Machine

/-- A scalar instruction of format R: W and P must be 0, and B too where `oneOp` (R138). (DEDUCED, log entry 24) -/
def aluR (fn : Nat) (oneOp : Bool) (op : Dword → Dword → Dword) (th : Nat) (f : RForm) (b : Block) : Block :=
  b.instr th (wordR 0x02 fn f) 4 fun _ t =>
    if f.w ≠ 0 ∨ f.p ≠ 0 ∨ (oneOp ∧ f.b ≠ 0) then .raise excIllegal
    else (t.setSc f.d (op (t.sc f.a) (t.sc f.b))).next

/-- A scalar instruction of format I; a shift's IMM12[11:6] must be 0 (R138). -/
def aluI (fn : Nat) (shift : Bool) (op : Dword → Dword → Dword) (th : Nat) (f : IForm) (b : Block) : Block :=
  b.instr th (wordI 0x03 fn f) 4 fun _ t =>
    if shift ∧ bits f.imm 6 6 ≠ 0 then .raise excIllegal
    else (t.setSc f.d (op (t.sc f.a) (f.imm.signExtend 64))).next

/-- A truth value as a scalar. -/
def flag64 (p : Bool) : Dword := if p then 1 else 0

def sllOp (x y : Dword) : Dword := x <<< (y.toNat % 64)
def srlOp (x y : Dword) : Dword := x >>> (y.toNat % 64)
def sraOp (x y : Dword) : Dword := x.sshiftRight (y.toNat % 64)
def mulhsOp (x y : Dword) : Dword := ((x.signExtend 128 * y.signExtend 128) >>> 64).truncate 64
def mulhuOp (x y : Dword) : Dword := ((x.zeroExtend 128 * y.zeroExtend 128) >>> 64).truncate 64

/-- Leading zeros. -/
def clzOp (x _ : Dword) : Dword := BitVec.ofNat 64 (if x = 0 then 64 else 63 - Nat.log2 x.toNat)

/-- Trailing zeros: the lowest of `n` bits from bit `i` on that is set. -/
def ctzFrom (x : Dword) : Nat → Nat → Nat
  | 0, i => i
  | n + 1, i => if x.getLsbD i then i else ctzFrom x n (i + 1)
def ctzOp (x _ : Dword) : Dword := BitVec.ofNat 64 (ctzFrom x 64 0)

/-- Set bits. -/
def popcount {n : Nat} (x : BitVec n) : Nat := ((List.range n).filter x.getLsbD).length
def popcOp (x _ : Dword) : Dword := BitVec.ofNat 64 (popcount x)

/-- ADD (Table 5.4). -/
def execAdd (th : Nat) (f : RForm) (s : State) : Host.Outcome State Fault Refusal := s.upd (aluR 0x00 false (· + ·) th f)
/-- SUB (Table 5.4). -/
def execSub (th : Nat) (f : RForm) (s : State) : Host.Outcome State Fault Refusal := s.upd (aluR 0x01 false (· - ·) th f)
/-- AND (Table 5.4). -/
def execAnd (th : Nat) (f : RForm) (s : State) : Host.Outcome State Fault Refusal := s.upd (aluR 0x02 false (· &&& ·) th f)
/-- OR (Table 5.4). -/
def execOr (th : Nat) (f : RForm) (s : State) : Host.Outcome State Fault Refusal := s.upd (aluR 0x03 false (· ||| ·) th f)
/-- XOR (Table 5.4). -/
def execXor (th : Nat) (f : RForm) (s : State) : Host.Outcome State Fault Refusal := s.upd (aluR 0x04 false (· ^^^ ·) th f)
/-- SLL (Table 5.4). -/
def execSll (th : Nat) (f : RForm) (s : State) : Host.Outcome State Fault Refusal := s.upd (aluR 0x05 false sllOp th f)
/-- SRL (Table 5.4). -/
def execSrl (th : Nat) (f : RForm) (s : State) : Host.Outcome State Fault Refusal := s.upd (aluR 0x06 false srlOp th f)
/-- SRA (Table 5.4). -/
def execSra (th : Nat) (f : RForm) (s : State) : Host.Outcome State Fault Refusal := s.upd (aluR 0x07 false sraOp th f)
/-- MUL (Table 5.4). -/
def execMul (th : Nat) (f : RForm) (s : State) : Host.Outcome State Fault Refusal := s.upd (aluR 0x08 false (· * ·) th f)
/-- MULHS (Table 5.4). -/
def execMulhs (th : Nat) (f : RForm) (s : State) : Host.Outcome State Fault Refusal := s.upd (aluR 0x09 false mulhsOp th f)
/-- MULHU (Table 5.4). -/
def execMulhu (th : Nat) (f : RForm) (s : State) : Host.Outcome State Fault Refusal := s.upd (aluR 0x0A false mulhuOp th f)
/-- SLT (Table 5.4). -/
def execSlt (th : Nat) (f : RForm) (s : State) : Host.Outcome State Fault Refusal :=
  s.upd (aluR 0x0B false (fun x y => flag64 (x.slt y)) th f)
/-- SLTU (Table 5.4). -/
def execSltu (th : Nat) (f : RForm) (s : State) : Host.Outcome State Fault Refusal :=
  s.upd (aluR 0x0C false (fun x y => flag64 (x.ult y)) th f)
/-- SEQ (Table 5.4). -/
def execSeq (th : Nat) (f : RForm) (s : State) : Host.Outcome State Fault Refusal :=
  s.upd (aluR 0x0D false (fun x y => flag64 (x == y)) th f)
/-- MIN (Table 5.4). -/
def execMin (th : Nat) (f : RForm) (s : State) : Host.Outcome State Fault Refusal :=
  s.upd (aluR 0x0E false (fun x y => if x.slt y then x else y) th f)
/-- MAX (Table 5.4). -/
def execMax (th : Nat) (f : RForm) (s : State) : Host.Outcome State Fault Refusal :=
  s.upd (aluR 0x0F false (fun x y => if x.slt y then y else x) th f)
/-- MINU (Table 5.4). -/
def execMinu (th : Nat) (f : RForm) (s : State) : Host.Outcome State Fault Refusal :=
  s.upd (aluR 0x10 false (fun x y => if x.ult y then x else y) th f)
/-- MAXU (Table 5.4). -/
def execMaxu (th : Nat) (f : RForm) (s : State) : Host.Outcome State Fault Refusal :=
  s.upd (aluR 0x11 false (fun x y => if x.ult y then y else x) th f)
/-- CLZ (Table 5.4). -/
def execClz (th : Nat) (f : RForm) (s : State) : Host.Outcome State Fault Refusal := s.upd (aluR 0x12 true clzOp th f)
/-- CTZ (Table 5.4). -/
def execCtz (th : Nat) (f : RForm) (s : State) : Host.Outcome State Fault Refusal := s.upd (aluR 0x13 true ctzOp th f)
/-- POPC (Table 5.4). -/
def execPopc (th : Nat) (f : RForm) (s : State) : Host.Outcome State Fault Refusal := s.upd (aluR 0x14 true popcOp th f)
/-- ADDI (Table 5.4). -/
def execAddi (th : Nat) (f : IForm) (s : State) : Host.Outcome State Fault Refusal := s.upd (aluI 0x0 false (· + ·) th f)
/-- ANDI (Table 5.4). -/
def execAndi (th : Nat) (f : IForm) (s : State) : Host.Outcome State Fault Refusal := s.upd (aluI 0x1 false (· &&& ·) th f)
/-- ORI (Table 5.4). -/
def execOri (th : Nat) (f : IForm) (s : State) : Host.Outcome State Fault Refusal := s.upd (aluI 0x2 false (· ||| ·) th f)
/-- XORI (Table 5.4). -/
def execXori (th : Nat) (f : IForm) (s : State) : Host.Outcome State Fault Refusal := s.upd (aluI 0x3 false (· ^^^ ·) th f)
/-- SLLI (Table 5.4). -/
def execSlli (th : Nat) (f : IForm) (s : State) : Host.Outcome State Fault Refusal := s.upd (aluI 0x4 true sllOp th f)
/-- SRLI (Table 5.4). -/
def execSrli (th : Nat) (f : IForm) (s : State) : Host.Outcome State Fault Refusal := s.upd (aluI 0x5 true srlOp th f)
/-- SRAI (Table 5.4). -/
def execSrai (th : Nat) (f : IForm) (s : State) : Host.Outcome State Fault Refusal := s.upd (aluI 0x6 true sraOp th f)
/-- SLTI (Table 5.4). -/
def execSlti (th : Nat) (f : IForm) (s : State) : Host.Outcome State Fault Refusal :=
  s.upd (aluI 0x7 false (fun x y => flag64 (x.slt y)) th f)
/-- SLTIU (Table 5.4). -/
def execSltiu (th : Nat) (f : IForm) (s : State) : Host.Outcome State Fault Refusal :=
  s.upd (aluI 0x8 false (fun x y => flag64 (x.ult y)) th f)

/-- LI (R137). -/
def execLi (th : Nat) (f : LIForm) (s : State) : Host.Outcome State Fault Refusal :=
  s.upd fun b => b.instr th (wordLI f) 8 fun _ t =>
    if f.lo ≠ 0 then .raise excIllegal
    else
      let v : Dword := if f.h = 0 then f.ext.signExtend 64 else f.ext ++ (t.sc f.d).truncate 32
      .done ((t.setSc f.d v).adv 8) id

/-- A system instruction: the fields that it does not use must be 0 (Table 5.4). (DEDUCED, log entry 24) -/
def sysR (fn : Nat) (usesD usesA : Bool) (act : Job → Thread → IRes) (th : Nat) (f : RForm) (b : Block) : Block :=
  b.instr th (wordR 0x01 fn f) 4 fun job t =>
    if (!usesD ∧ f.d ≠ 0) ∨ (!usesA ∧ f.a ≠ 0) ∨ f.b ≠ 0 ∨ f.w ≠ 0 ∨ f.p ≠ 0 then .raise excIllegal else act job t

/-- NOP (Table 5.4). -/
def execNop (th : Nat) (f : RForm) (s : State) : Host.Outcome State Fault Refusal :=
  s.upd (sysR 0x00 false false (fun _ t => t.next) th f)
/-- END (Table 5.4, R153). -/
def execEndThread (th : Nat) (f : RForm) (s : State) : Host.Outcome State Fault Refusal :=
  s.upd (sysR 0x01 false false (fun _ t => .done (t.adv 4) (·.endThread th)) th f)
/-- FENCE (R145): every earlier store and AMO of the thread is visible already (DESIGN CHOICE, log entry 7).
(DEDUCED, log entry 25) -/
def execFence (th : Nat) (f : RForm) (s : State) : Host.Outcome State Fault Refusal :=
  s.upd (sysR 0x02 false false (fun _ t => t.next) th f)
/-- RDTIME (Table 5.4). -/
def execRdtime (th : Nat) (f : RForm) (s : State) : Host.Outcome State Fault Refusal :=
  s.upd fun b => sysR 0x03 true false (fun _ t => (t.setSc f.d (BitVec.ofNat 64 b.now)).next) th f b
/-- What RDTLY reads (R444). -/
def Block.rdtly (b : Block) (i : Nat) : Nat := if b.rb (TLY_USER_EN (i / 32)) (i % 32) then b.tallyCount i else 0
/-- RDTLY (R444). -/
def execRdtly (th : Nat) (f : RForm) (s : State) : Host.Outcome State Fault Refusal :=
  s.upd fun b => sysR 0x04 true true
    (fun _ t => (t.setSc f.d (BitVec.ofNat 64 (b.rdtly (bits (t.sc f.a) 0 8)))).next) th f b
/-- A thread's summary before any failure (R134). -/
def tstZero (_ : Nat) : Tst := { first := 0, last := 0, count := 0 }
def Job.tstOf (job : Job) (jidx : Nat) : Tst := SMap.get tstZero job.tst jidx
/-- tst as TSTAT reads it (R134). -/
def Tst.word (x : Tst) : Dword := (0 : BitVec 16) ++ x.count ++ x.last ++ x.first
/-- TSTAT (R134). -/
def execTstat (th : Nat) (f : RForm) (s : State) : Host.Outcome State Fault Refusal :=
  s.upd (sysR 0x05 true false (fun job t => (t.setSc f.d (job.tstOf t.jidx).word).next) th f)
/-- TRAP (Table 5.16). -/
def execTrap (th : Nat) (f : RForm) (s : State) : Host.Outcome State Fault Refusal :=
  s.upd (sysR 0x06 false false (fun _ _ => .raise excTrap) th f)

/-- The pc of a thread as an integer. -/
def Thread.pcInt (t : Thread) : Int := t.pc.toNat

/-- A compare and branch (Table 5.10). -/
def branch (cond : Nat) (p : Dword → Dword → Bool) (th : Nat) (f : BForm) (b : Block) : Block :=
  b.instr th (wordB 0x18 cond f) 4 fun _ t =>
    if p (t.sc f.a) (t.sc f.b) then t.jump (t.pcInt + 4 * f.off.toInt) else t.next

/-- BEQ (Table 5.10). -/
def execBeq (th : Nat) (f : BForm) (s : State) : Host.Outcome State Fault Refusal := s.upd (branch 0 (· == ·) th f)
/-- BNE (Table 5.10). -/
def execBne (th : Nat) (f : BForm) (s : State) : Host.Outcome State Fault Refusal := s.upd (branch 1 (· != ·) th f)
/-- BLT (Table 5.10). -/
def execBlt (th : Nat) (f : BForm) (s : State) : Host.Outcome State Fault Refusal := s.upd (branch 2 BitVec.slt th f)
/-- BGE (Table 5.10). -/
def execBge (th : Nat) (f : BForm) (s : State) : Host.Outcome State Fault Refusal :=
  s.upd (branch 3 (fun x y => !x.slt y) th f)
/-- BLTU (Table 5.10). -/
def execBltu (th : Nat) (f : BForm) (s : State) : Host.Outcome State Fault Refusal := s.upd (branch 4 BitVec.ult th f)
/-- BGEU (Table 5.10). -/
def execBgeu (th : Nat) (f : BForm) (s : State) : Host.Outcome State Fault Refusal :=
  s.upd (branch 5 (fun x y => !x.ult y) th f)

/-- A branch on a predicate: B must be 0 (Table 5.10). (DEDUCED, log entry 24) -/
def branchP (cond : Nat) (p : Dword → Bool) (th : Nat) (f : BForm) (b : Block) : Block :=
  b.instr th (wordB 0x19 cond f) 4 fun _ t =>
    if !prOk f.a ∨ f.b ≠ 0 then .raise excIllegal
    else if p (t.pr f.a) then t.jump (t.pcInt + 4 * f.off.toInt) else t.next

/-- BPANY (Table 5.10). -/
def execBpany (th : Nat) (f : BForm) (s : State) : Host.Outcome State Fault Refusal := s.upd (branchP 0 (· != 0) th f)
/-- BPNONE (Table 5.10). -/
def execBpnone (th : Nat) (f : BForm) (s : State) : Host.Outcome State Fault Refusal := s.upd (branchP 1 (· == 0) th f)
/-- BPALL (Table 5.10). -/
def execBpall (th : Nat) (f : BForm) (s : State) : Host.Outcome State Fault Refusal :=
  s.upd (branchP 2 (· == BitVec.allOnes 64) th f)

/-- A jump that links: the register is not written where the jump raises FETCH (R137). -/
def linkJump (t : Thread) (d : BitVec 5) (target : Int) : IRes :=
  (t.setSc d (BitVec.ofNat 64 (t.pc.toNat + 4))).jump target

/-- JAL (Table 5.10). -/
def execJal (th : Nat) (f : JForm) (s : State) : Host.Outcome State Fault Refusal :=
  s.upd fun b => b.instr th (wordJ 0x1A f) 4 fun _ t => linkJump t f.d (t.pcInt + 4 * f.off.toInt)

/-- JALR (Table 5.10): the target is computed in 64-bit signed arithmetic and its bits [1:0] cleared. -/
def execJalr (th : Nat) (f : IForm) (s : State) : Host.Outcome State Fault Refusal :=
  s.upd fun b => b.instr th (wordI 0x1B 0 f) 4 fun _ t =>
    linkJump t f.d ((t.sc f.a + f.imm.signExtend 64) &&& ~~~3).toInt

end Sys2Proof.Machine
end

