-- ==== Sys2Proof/Machine/Vector.lean ====
section
/-! DEFINITION. Predicate and vector integer instructions (R139, Tables 5.5 and 5.7). -/

namespace Sys2Proof.Machine

/-! Predicates (Table 5.7). -/

/-- A predicate instruction on two predicates. -/
def predR (fn : Nat) (op : Dword → Dword → Dword) (th : Nat) (f : RForm) (b : Block) : Block :=
  b.instr th (wordR 0x08 fn f) 4 fun _ t =>
    if !prOk f.d ∨ !prOk f.a ∨ !prOk f.b then .raise excIllegal
    else (t.setPr f.d (op (t.pr f.a) (t.pr f.b))).next

/-- PAND (Table 5.7). -/
def execPand (th : Nat) (f : RForm) (s : State) : Host.Outcome State Fault Refusal := s.upd (predR 0x00 (· &&& ·) th f)
/-- POR (Table 5.7). -/
def execPor (th : Nat) (f : RForm) (s : State) : Host.Outcome State Fault Refusal := s.upd (predR 0x01 (· ||| ·) th f)
/-- PXOR (Table 5.7). -/
def execPxor (th : Nat) (f : RForm) (s : State) : Host.Outcome State Fault Refusal := s.upd (predR 0x02 (· ^^^ ·) th f)
/-- PANDN (Table 5.7). -/
def execPandn (th : Nat) (f : RForm) (s : State) : Host.Outcome State Fault Refusal :=
  s.upd (predR 0x03 (fun x y => x &&& ~~~y) th f)
/-- PNOT (Table 5.7). -/
def execPnot (th : Nat) (f : RForm) (s : State) : Host.Outcome State Fault Refusal :=
  s.upd fun b => b.instr th (wordR 0x08 0x04 f) 4 fun _ t =>
    if !prOk f.d ∨ !prOk f.a then .raise excIllegal else (t.setPr f.d (~~~t.pr f.a)).next
/-- PMOVS (Table 5.7). -/
def execPmovs (th : Nat) (f : RForm) (s : State) : Host.Outcome State Fault Refusal :=
  s.upd fun b => b.instr th (wordR 0x08 0x05 f) 4 fun _ t =>
    if !prOk f.d then .raise excIllegal else (t.setPr f.d (t.sc f.a)).next
/-- PTOS (Table 5.7). -/
def execPtos (th : Nat) (f : RForm) (s : State) : Host.Outcome State Fault Refusal :=
  s.upd fun b => b.instr th (wordR 0x08 0x06 f) 4 fun _ t =>
    if !prOk f.a then .raise excIllegal else (t.setSc f.d (t.pr f.a)).next
/-- PFIRST (Table 5.7). -/
def execPfirst (th : Nat) (f : RForm) (s : State) : Host.Outcome State Fault Refusal :=
  s.upd fun b => b.instr th (wordR 0x08 0x07 f) 4 fun _ t =>
    if !prOk f.d then .raise excIllegal
    else (t.setPr f.d (BitVec.ofNat 64 (2 ^ min (t.sc f.a).toNat 64 - 1))).next
/-- PCNT (Table 5.7). -/
def execPcnt (th : Nat) (f : RForm) (s : State) : Host.Outcome State Fault Refusal :=
  s.upd fun b => b.instr th (wordR 0x08 0x08 f) 4 fun _ t =>
    if !prOk f.a then .raise excIllegal else (t.setSc f.d (BitVec.ofNat 64 (popcount (t.pr f.a)))).next

/-! Vector elements (R139). -/

/-- The element width in bytes. -/
def ewidth (w : BitVec 2) : Nat := 2 ^ w.toNat

/-- How many elements of `w` bytes a vector has. -/
def elems (w : Nat) : Nat := 64 / w

/-- Element `i` of `w` bytes. -/
def elem (x : VecReg) (w i : Nat) : Nat := bits x (8 * w * i) (8 * w)

/-- Numbers of `n` bits packed from the lowest bit up. -/
def packNat (n : Nat) : List Nat → Nat
  | [] => 0
  | x :: xs => x % 2 ^ n + 2 ^ n * packNat n xs

/-- The vector with these elements. -/
def packVec (w : Nat) (xs : List Nat) : VecReg := BitVec.ofNat 512 (packNat (8 * w) xs)

/-- Element `i` is active (R139). -/
def activeAt (gov : Dword) (w i : Nat) : Bool := bit gov (i * w)

/-- The vector with its active elements replaced (R139). -/
def vmap (old : VecReg) (w : Nat) (gov : Dword) (f : Nat → Nat) : VecReg :=
  packVec w ((List.range (elems w)).map fun i => if activeAt gov w i then f i else elem old w i)

/-- The predicate with the bits of its active elements replaced by a truth value (R139). -/
def pmap (old : Dword) (w : Nat) (gov : Dword) (f : Nat → Bool) : Dword :=
  BitVec.ofNat 64 (packNat w ((List.range (elems w)).map fun i =>
    if activeAt gov w i then (if f i then 2 ^ w - 1 else 0) else bits old (i * w) w))

/-- An element as a signed number. -/
def sElem (w x : Nat) : Int := sext (8 * w) x

/-- A signed number cut to `w` bytes. -/
def cutInt (w : Nat) (x : Int) : Nat := (x % (2 ^ (8 * w) : Nat)).toNat

/-- A vector integer operation on two vectors (Table 5.5); `op w a b` is the active element. -/
def valuR (fn : Nat) (op : Nat → Nat → Nat → Nat) (th : Nat) (f : RForm) (b : Block) : Block :=
  b.instr th (wordR 0x0A fn f) 4 fun _ t =>
    if !vecOk f.d ∨ !vecOk f.a ∨ !vecOk f.b then .raise excIllegal
    else
      let w := ewidth f.w
      (t.setVec f.d (vmap (t.vec f.d) w (t.gov f.p) fun i => op w (elem (t.vec f.a) w i) (elem (t.vec f.b) w i))).next

/-- A vector compare into a predicate (Table 5.5). -/
def vcmpR (major fn : Nat) (op : Nat → Nat → Nat → Bool) (th : Nat) (f : RForm) (b : Block) : Block :=
  b.instr th (wordR major fn f) 4 fun _ t =>
    if !prOk f.d ∨ !vecOk f.a ∨ !vecOk f.b then .raise excIllegal
    else
      let w := ewidth f.w
      (t.setPr f.d (pmap (t.pr f.d) w (t.gov f.p) fun i => op w (elem (t.vec f.a) w i) (elem (t.vec f.b) w i))).next

/-- A signed result cut to the element. -/
def sOp (g : Int → Int → Int) (w a b : Nat) : Nat := cutInt w (g (sElem w a) (sElem w b))

/-- The largest signed and unsigned numbers of `w` bytes. -/
def smax (w : Nat) : Int := (2 ^ (8 * w - 1) : Nat) - 1
def smin (w : Nat) : Int := -(2 ^ (8 * w - 1) : Nat)
def umax (w : Nat) : Nat := 2 ^ (8 * w) - 1

/-- VADD (Table 5.5). -/
def execVadd (th : Nat) (f : RForm) (s : State) : Host.Outcome State Fault Refusal :=
  s.upd (valuR 0x00 (fun w a b => (a + b) % 2 ^ (8 * w)) th f)
/-- VSUB (Table 5.5). -/
def execVsub (th : Nat) (f : RForm) (s : State) : Host.Outcome State Fault Refusal :=
  s.upd (valuR 0x01 (sOp fun a b => a - b) th f)
/-- VMUL (Table 5.5). -/
def execVmul (th : Nat) (f : RForm) (s : State) : Host.Outcome State Fault Refusal :=
  s.upd (valuR 0x02 (fun w a b => (a * b) % 2 ^ (8 * w)) th f)
/-- VMULHS (Table 5.5). -/
def execVmulhs (th : Nat) (f : RForm) (s : State) : Host.Outcome State Fault Refusal :=
  s.upd (valuR 0x03 (fun w a b => cutInt w ((sElem w a * sElem w b) / (2 ^ (8 * w) : Nat))) th f)
/-- VMULHU (Table 5.5). -/
def execVmulhu (th : Nat) (f : RForm) (s : State) : Host.Outcome State Fault Refusal :=
  s.upd (valuR 0x04 (fun w a b => a * b / 2 ^ (8 * w)) th f)
/-- VMIN (Table 5.5). -/
def execVmin (th : Nat) (f : RForm) (s : State) : Host.Outcome State Fault Refusal :=
  s.upd (valuR 0x05 (sOp fun a b => min a b) th f)
/-- VMAX (Table 5.5). -/
def execVmax (th : Nat) (f : RForm) (s : State) : Host.Outcome State Fault Refusal :=
  s.upd (valuR 0x06 (sOp fun a b => max a b) th f)
/-- VMINU (Table 5.5). -/
def execVminu (th : Nat) (f : RForm) (s : State) : Host.Outcome State Fault Refusal :=
  s.upd (valuR 0x07 (fun _ a b => min a b) th f)
/-- VMAXU (Table 5.5). -/
def execVmaxu (th : Nat) (f : RForm) (s : State) : Host.Outcome State Fault Refusal :=
  s.upd (valuR 0x08 (fun _ a b => max a b) th f)
/-- VAND (Table 5.5). -/
def execVand (th : Nat) (f : RForm) (s : State) : Host.Outcome State Fault Refusal :=
  s.upd (valuR 0x09 (fun _ a b => a &&& b) th f)
/-- VOR (Table 5.5). -/
def execVor (th : Nat) (f : RForm) (s : State) : Host.Outcome State Fault Refusal :=
  s.upd (valuR 0x0A (fun _ a b => a ||| b) th f)
/-- VXOR (Table 5.5). -/
def execVxor (th : Nat) (f : RForm) (s : State) : Host.Outcome State Fault Refusal :=
  s.upd (valuR 0x0B (fun _ a b => a ^^^ b) th f)
/-- VSLL (Table 5.5). -/
def execVsll (th : Nat) (f : RForm) (s : State) : Host.Outcome State Fault Refusal :=
  s.upd (valuR 0x0C (fun w a b => a * 2 ^ (b % (8 * w)) % 2 ^ (8 * w)) th f)
/-- VSRL (Table 5.5). -/
def execVsrl (th : Nat) (f : RForm) (s : State) : Host.Outcome State Fault Refusal :=
  s.upd (valuR 0x0D (fun w a b => a / 2 ^ (b % (8 * w))) th f)
/-- VSRA (Table 5.5). -/
def execVsra (th : Nat) (f : RForm) (s : State) : Host.Outcome State Fault Refusal :=
  s.upd (valuR 0x0E (fun w a b => cutInt w (sElem w a / (2 ^ (b % (8 * w)) : Nat))) th f)
/-- VADDS (Table 5.5). -/
def execVadds (th : Nat) (f : RForm) (s : State) : Host.Outcome State Fault Refusal :=
  s.upd (valuR 0x0F (fun w => sOp (fun a b => clampInt (smin w) (smax w) (a + b)) w) th f)
/-- VADDUS (Table 5.5). -/
def execVaddus (th : Nat) (f : RForm) (s : State) : Host.Outcome State Fault Refusal :=
  s.upd (valuR 0x10 (fun w a b => min (a + b) (umax w)) th f)
/-- VSUBS (Table 5.5). -/
def execVsubs (th : Nat) (f : RForm) (s : State) : Host.Outcome State Fault Refusal :=
  s.upd (valuR 0x11 (fun w => sOp (fun a b => clampInt (smin w) (smax w) (a - b)) w) th f)
/-- VSUBUS (Table 5.5). -/
def execVsubus (th : Nat) (f : RForm) (s : State) : Host.Outcome State Fault Refusal :=
  s.upd (valuR 0x12 (fun _ a b => a - b) th f)
/-- VAVGU (Table 5.5). -/
def execVavgu (th : Nat) (f : RForm) (s : State) : Host.Outcome State Fault Refusal :=
  s.upd (valuR 0x13 (fun _ a b => (a + b + 1) / 2) th f)
/-- VABSD (Table 5.5): signed operands, as in every form without a U, and an unsigned result (DEDUCED, log entry 9). -/
def execVabsd (th : Nat) (f : RForm) (s : State) : Host.Outcome State Fault Refusal :=
  s.upd (valuR 0x14 (fun w a b => (sElem w a - sElem w b).natAbs) th f)
/-- VCEQ (Table 5.5). -/
def execVceq (th : Nat) (f : RForm) (s : State) : Host.Outcome State Fault Refusal :=
  s.upd (vcmpR 0x0A 0x15 (fun _ a b => a == b) th f)
/-- VCLT (Table 5.5). -/
def execVclt (th : Nat) (f : RForm) (s : State) : Host.Outcome State Fault Refusal :=
  s.upd (vcmpR 0x0A 0x16 (fun w a b => sElem w a < sElem w b) th f)
/-- VCLTU (Table 5.5). -/
def execVcltu (th : Nat) (f : RForm) (s : State) : Host.Outcome State Fault Refusal :=
  s.upd (vcmpR 0x0A 0x17 (fun _ a b => a < b) th f)
/-- VSPLAT (Table 5.5). -/
def execVsplat (th : Nat) (f : RForm) (s : State) : Host.Outcome State Fault Refusal :=
  s.upd fun b => b.instr th (wordR 0x0A 0x18 f) 4 fun _ t =>
    if !vecOk f.d then .raise excIllegal
    else
      let w := ewidth f.w
      (t.setVec f.d (vmap (t.vec f.d) w (t.gov f.p) fun _ => (t.sc f.a).toNat % 2 ^ (8 * w))).next
/-- VEXT (Table 5.5): P must be 0. -/
def execVext (th : Nat) (f : RForm) (s : State) : Host.Outcome State Fault Refusal :=
  s.upd fun b => b.instr th (wordR 0x0A 0x19 f) 4 fun _ t =>
    if !vecOk f.a ∨ f.p ≠ 0 then .raise excIllegal
    else
      let w := ewidth f.w
      (t.setSc f.d (BitVec.ofNat 64 (elem (t.vec f.a) w ((t.sc f.b).toNat % elems w)))).next
/-- VINS (Table 5.5): P must be 0. -/
def execVins (th : Nat) (f : RForm) (s : State) : Host.Outcome State Fault Refusal :=
  s.upd fun b => b.instr th (wordR 0x0A 0x1A f) 4 fun _ t =>
    if !vecOk f.d ∨ f.p ≠ 0 then .raise excIllegal
    else
      let w := ewidth f.w
      let k := (t.sc f.b).toNat % elems w
      (t.setVec f.d (packVec w ((List.range (elems w)).map fun i =>
        if i = k then (t.sc f.a).toNat % 2 ^ (8 * w) else elem (t.vec f.d) w i))).next
/-- VPERM (Table 5.5): W must be 0. -/
def execVperm (th : Nat) (f : RForm) (s : State) : Host.Outcome State Fault Refusal :=
  s.upd fun b => b.instr th (wordR 0x0A 0x1B f) 4 fun _ t =>
    if !vecOk f.d ∨ !vecOk f.a ∨ !vecOk f.b ∨ f.w ≠ 0 then .raise excIllegal
    else (t.setVec f.d (vmap (t.vec f.d) 1 (t.gov f.p) fun i => elem (t.vec f.a) 1 (elem (t.vec f.b) 1 i % 64))).next
/-- VREDADD (Table 5.5). -/
def execVredadd (th : Nat) (f : RForm) (s : State) : Host.Outcome State Fault Refusal :=
  s.upd fun b => b.instr th (wordR 0x0A 0x1C f) 4 fun _ t =>
    if !vecOk f.a then .raise excIllegal
    else
      let w := ewidth f.w
      (t.setSc f.d (BitVec.ofInt 64 (((List.range (elems w)).filter (activeAt (t.gov f.p) w)).foldl
        (fun acc i => acc + sElem w (elem (t.vec f.a) w i)) 0))).next
/-- VMOV (Table 5.5). -/
def execVmov (th : Nat) (f : RForm) (s : State) : Host.Outcome State Fault Refusal :=
  s.upd fun b => b.instr th (wordR 0x0A 0x1D f) 4 fun _ t =>
    if !vecOk f.d ∨ !vecOk f.a then .raise excIllegal
    else
      let w := ewidth f.w
      (t.setVec f.d (vmap (t.vec f.d) w (t.gov f.p) (elem (t.vec f.a) w))).next

end Sys2Proof.Machine
end

