-- ==== Sys2Proof/Machine/Float.lean ====
section
/-! DEFINITION. Vector floating-point instructions (R140, R141, Table 5.6). -/

namespace Sys2Proof.Machine

/-- The float format that W or a source code selects (R140, R141); none for a code that is no float. -/
def floatFmt (w : Nat) : Option Fmt :=
  if w = 0 then some bf16 else if w = 1 then some fp16 else if w = 2 then some fp32 else none

/-- The element width in bytes of a float format: 2 for BF16 and FP16, 4 for FP32. -/
def Fmt.bytes (f : Fmt) : Nat := f.width / 8

/-- A floating-point operation on elements (Table 5.6): `op fmt d a b`. W = 3 raises ILLEGAL. -/
def vfltR (fn : Nat) (usesB : Bool) (op : Fmt → Fp → Fp → Fp → Fp) (th : Nat) (f : RForm) (b : Block) : Block :=
  b.instr th (wordR 0x0B fn f) 4 fun _ t =>
    match floatFmt f.w.toNat with
    | none => .raise excIllegal
    | some fm =>
      if !vecOk f.d ∨ !vecOk f.a ∨ (usesB ∧ !vecOk f.b) then .raise excIllegal
      else
        let w := fm.bytes
        (t.setVec f.d (vmap (t.vec f.d) w (t.gov f.p) fun i =>
          fm.encode (op fm (fm.decode (elem (t.vec f.d) w i)) (fm.decode (elem (t.vec f.a) w i))
            (fm.decode (elem (t.vec f.b) w i))))).next

/-- A floating-point compare into a predicate (Table 5.6). -/
def vfcmpR (fn : Nat) (op : Fp → Fp → Bool) (th : Nat) (f : RForm) (b : Block) : Block :=
  b.instr th (wordR 0x0B fn f) 4 fun _ t =>
    match floatFmt f.w.toNat with
    | none => .raise excIllegal
    | some fm =>
      if !prOk f.d ∨ !vecOk f.a ∨ !vecOk f.b then .raise excIllegal
      else
        let w := fm.bytes
        (t.setPr f.d (pmap (t.pr f.d) w (t.gov f.p) fun i =>
          op (fm.decode (elem (t.vec f.a) w i)) (fm.decode (elem (t.vec f.b) w i)))).next

/-- VFADD (Table 5.6). -/
def execVfadd (th : Nat) (f : RForm) (s : State) : Host.Outcome State Fault Refusal :=
  s.upd (vfltR 0x00 true (fun _ _ a b => a.add b) th f)
/-- VFSUB (Table 5.6). -/
def execVfsub (th : Nat) (f : RForm) (s : State) : Host.Outcome State Fault Refusal :=
  s.upd (vfltR 0x01 true (fun _ _ a b => a.add b.neg) th f)
/-- VFMUL (Table 5.6). -/
def execVfmul (th : Nat) (f : RForm) (s : State) : Host.Outcome State Fault Refusal :=
  s.upd (vfltR 0x02 true (fun _ _ a b => a.mul b) th f)
/-- VFMA (Table 5.6), rounded once (R140). -/
def execVfma (th : Nat) (f : RForm) (s : State) : Host.Outcome State Fault Refusal :=
  s.upd (vfltR 0x03 true (fun _ d a b => d.add (a.mul b)) th f)
/-- VFMIN (Table 5.6). -/
def execVfmin (th : Nat) (f : RForm) (s : State) : Host.Outcome State Fault Refusal :=
  s.upd (vfltR 0x04 true (fun _ _ a b => a.minNum b) th f)
/-- VFMAX (Table 5.6). -/
def execVfmax (th : Nat) (f : RForm) (s : State) : Host.Outcome State Fault Refusal :=
  s.upd (vfltR 0x05 true (fun _ _ a b => a.maxNum b) th f)
/-- VFCLT (Table 5.6). -/
def execVfclt (th : Nat) (f : RForm) (s : State) : Host.Outcome State Fault Refusal := s.upd (vfcmpR 0x06 Fp.lt th f)
/-- VFCEQ (Table 5.6). -/
def execVfceq (th : Nat) (f : RForm) (s : State) : Host.Outcome State Fault Refusal := s.upd (vfcmpR 0x07 Fp.eq th f)

/-- The value of a source element of VFCVT (R141), and its width in bytes. -/
def cvtSrc (code : Nat) : Option (Nat × (Nat → Fp)) :=
  match code with
  | 0 => some (2, bf16.decode)
  | 1 => some (2, fp16.decode)
  | 2 => some (4, fp32.decode)
  | 3 => some (1, fun x => Fp.ofInt (sext 8 x))
  | 4 => some (1, fun x => Fp.ofInt (x : Int))
  | 5 => some (2, fun x => Fp.ofInt (sext 16 x))
  | 6 => some (4, fun x => Fp.ofInt (sext 32 x))
  | _ => none

/-- The conversion shared by VFCVT and VFCVTI (R141): `s` and `d` are the widths, `h` the half. -/
def cvtVec (old src : VecReg) (gov : Dword) (s d h : Nat) (g : Nat → Nat) : VecReg :=
  vmap old d gov fun i => if d < s then (if i < 64 / s then g (elem src s i) else 0) else g (elem src s (h * (64 / d) + i))

/-- VFCVT (R141). -/
def execVfcvt (th : Nat) (f : RForm) (s : State) : Host.Outcome State Fault Refusal :=
  s.upd fun b => b.instr th (wordR 0x0B 0x08 f) 4 fun _ t =>
    match floatFmt f.w.toNat, cvtSrc (bits f.b 0 3) with
    | some fm, some (sw, val) =>
      if !vecOk f.d ∨ !vecOk f.a ∨ bit f.b 4 ∨ (fm.bytes ≤ sw ∧ bit f.b 3) then .raise excIllegal
      else (t.setVec f.d (cvtVec (t.vec f.d) (t.vec f.a) (t.gov f.p) sw fm.bytes (bits f.b 3 1)
        fun x => fm.encode (val x))).next
    | _, _ => .raise excIllegal

/-- VFCVTI (R141): source codes 0 to 2; the integer width is W, but 3 raises ILLEGAL as for every VFLT (R140).
(DEDUCED, log entry 23) -/
def execVfcvti (th : Nat) (f : RForm) (s : State) : Host.Outcome State Fault Refusal :=
  s.upd fun b => b.instr th (wordR 0x0B 0x09 f) 4 fun _ t =>
    match floatFmt (bits f.b 0 3) with
    | some fm =>
      let d := ewidth f.w
      if f.w = 3 ∨ !vecOk f.d ∨ !vecOk f.a ∨ bit f.b 4 ∨ (d ≤ fm.bytes ∧ bit f.b 3) then .raise excIllegal
      else (t.setVec f.d (cvtVec (t.vec f.d) (t.vec f.a) (t.gov f.p) fm.bytes d (bits f.b 3 1)
        fun x => cutInt d ((fm.decode x).toInt (8 * d)))).next
    | none => .raise excIllegal

/-- An approximate function (R140): the value it yields within its error bound is not defined, so it is the n-th free
value where that lies in the bound. -/
def vfapxR (fn : Nat) (op : Fmt → Nat → Nat → Nat) (th : Nat) (f : RForm) (b : Block) : Block :=
  b.instr th (wordR 0x0B fn f) 4 fun _ t =>
    match floatFmt f.w.toNat with
    | none => .raise excIllegal
    | some fm =>
      if !vecOk f.d ∨ !vecOk f.a then .raise excIllegal
      else
        let w := fm.bytes
        .done ((t.setVec f.d (vmap (t.vec f.d) w (t.gov f.p) fun i =>
          op fm (elem (t.vec f.a) w i) (b.fresh / 2 ^ (32 * i)))).adv 4) Block.used

/-- VFRCP (R140). -/
def execVfrcp (th : Nat) (f : RForm) (s : State) : Host.Outcome State Fault Refusal := s.upd (vfapxR 0x0A rcpCode th f)
/-- VFRSQ (R140). -/
def execVfrsq (th : Nat) (f : RForm) (s : State) : Host.Outcome State Fault Refusal := s.upd (vfapxR 0x0B rsqCode th f)

end Sys2Proof.Machine
end

