-- ==== Sys2Proof/Machine/LoadStore.lean ====
section
/-! DEFINITION. Scalar and vector loads and stores, and atomics (R142 to R146, Table 5.9). -/

namespace Sys2Proof.Machine

/-- A local access of `n` bytes at a 64-bit address: ALIGN before ACCESS (R142, R143). -/
def Block.access (b : Block) (job : Job) (t : Thread) (th : Nat) (a : Dword) (n align : Nat) : Except Nat Local :=
  if a.toNat % align ≠ 0 then .error excAlign
  else match b.local? t.job job (standOf th) a.toNat n with
    | some l => .ok l
    | none => .error excAccess

/-- A scalar load of `n` bytes (Table 5.9). -/
def load (fn n : Nat) (signed : Bool) (th : Nat) (f : MForm) (b : Block) : Block :=
  b.instr th (wordM 0x10 fn f) 4 fun job t =>
    match b.access job t th (t.sc f.a + f.imm.signExtend 64) n n with
    | .error c => .raise c
    | .ok l =>
      let v := b.locBits l n
      (t.setSc f.d (if signed then BitVec.ofInt 64 (sext (8 * n) v) else BitVec.ofNat 64 v)).next

/-- LD.B (Table 5.9). -/
def execLdB (th : Nat) (f : MForm) (s : State) : Host.Outcome State Fault Refusal := s.upd (load 0 1 true th f)
/-- LD.BU (Table 5.9). -/
def execLdBu (th : Nat) (f : MForm) (s : State) : Host.Outcome State Fault Refusal := s.upd (load 1 1 false th f)
/-- LD.H (Table 5.9). -/
def execLdH (th : Nat) (f : MForm) (s : State) : Host.Outcome State Fault Refusal := s.upd (load 2 2 true th f)
/-- LD.HU (Table 5.9). -/
def execLdHu (th : Nat) (f : MForm) (s : State) : Host.Outcome State Fault Refusal := s.upd (load 3 2 false th f)
/-- LD.W (Table 5.9). -/
def execLdW (th : Nat) (f : MForm) (s : State) : Host.Outcome State Fault Refusal := s.upd (load 4 4 true th f)
/-- LD.WU (Table 5.9). -/
def execLdWu (th : Nat) (f : MForm) (s : State) : Host.Outcome State Fault Refusal := s.upd (load 5 4 false th f)
/-- LD.D (Table 5.9). -/
def execLdD (th : Nat) (f : MForm) (s : State) : Host.Outcome State Fault Refusal := s.upd (load 6 8 false th f)

/-- A scalar store of the low `n` bytes of sD (Table 5.9). -/
def store (fn n : Nat) (th : Nat) (f : MForm) (b : Block) : Block :=
  b.instr th (wordM 0x11 fn f) 4 fun job t =>
    match b.access job t th (t.sc f.a + f.imm.signExtend 64) n n with
    | .error c => .raise c
    | .ok l => .done (t.adv 4) fun b => b.locWrite l 0 (leBytes n (t.sc f.d).toNat)

/-- ST.B (Table 5.9). -/
def execStB (th : Nat) (f : MForm) (s : State) : Host.Outcome State Fault Refusal := s.upd (store 0 1 th f)
/-- ST.H (Table 5.9). -/
def execStH (th : Nat) (f : MForm) (s : State) : Host.Outcome State Fault Refusal := s.upd (store 2 2 th f)
/-- ST.W (Table 5.9). -/
def execStW (th : Nat) (f : MForm) (s : State) : Host.Outcome State Fault Refusal := s.upd (store 4 4 th f)
/-- ST.D (Table 5.9). -/
def execStD (th : Nat) (f : MForm) (s : State) : Host.Outcome State Fault Refusal := s.upd (store 6 8 th f)

/-- The address of VLD and VST: sA + 64 × IMM13 (Table 5.9). -/
def vaddr (t : Thread) (f : VMForm) : Dword := t.sc f.a + f.imm.signExtend 64 * 64

/-- Every active byte lane lies in a permitted range (R143). -/
def Block.lanesOk (b : Block) (job : Job) (t : Thread) (th : Nat) (a : Dword) (gov : Dword) : Bool :=
  (List.range 64).all fun i => !bit gov i || (b.local? t.job job (standOf th) (a.toNat + i) 1).isSome

/-- VLD (Table 5.9): only active byte lanes are read. -/
def execVld (th : Nat) (f : VMForm) (s : State) : Host.Outcome State Fault Refusal :=
  s.upd fun b => b.instr th (wordVM 0x12 f) 4 fun job t =>
    let a := vaddr t f
    let gov := t.gov f.p
    if !vecOk f.d then .raise excIllegal
    else if a.toNat % 64 ≠ 0 then .raise excAlign
    else if !b.lanesOk job t th a gov then .raise excAccess
    else (t.setVec f.d (vmap (t.vec f.d) 1 gov fun i =>
      match b.local? t.job job (standOf th) (a.toNat + i) 1 with
      | some l => (b.locGet l 0).toNat
      | none => 0)).next

/-- VST (Table 5.9): only active byte lanes are written. -/
def execVst (th : Nat) (f : VMForm) (s : State) : Host.Outcome State Fault Refusal :=
  s.upd fun b => b.instr th (wordVM 0x13 f) 4 fun job t =>
    let a := vaddr t f
    let gov := t.gov f.p
    if !vecOk f.d then .raise excIllegal
    else if a.toNat % 64 ≠ 0 then .raise excAlign
    else if !b.lanesOk job t th a gov then .raise excAccess
    else .done (t.adv 4) fun b => b.each (List.range 64) fun b' i =>
      if bit gov i then
        match b.local? t.job job (standOf th) (a.toNat + i) 1 with
        | some l => b'.locWrite l 0 [BitVec.ofNat 8 (elem (t.vec f.d) 1 i)]
        | none => b'
      else b'

/-- An atomic on 8 bytes (Table 5.9): `op old b d` is what it stores; sD takes the old value. W and P must be 0. -/
def amo (fn : Nat) (op : Dword → Dword → Dword → Dword) (th : Nat) (f : RForm) (b : Block) : Block :=
  b.instr th (wordR 0x14 fn f) 4 fun job t =>
    if f.w ≠ 0 ∨ f.p ≠ 0 then .raise excIllegal
    else match b.access job t th (t.sc f.a) 8 8 with
      | .error c => .raise c
      | .ok l =>
        let old := BitVec.ofNat 64 (b.locBits l 8)
        .done ((t.setSc f.d old).adv 4) fun b => b.locWrite l 0 (leBytes 8 (op old (t.sc f.b) (t.sc f.d)).toNat)

/-- AADD (Table 5.9). -/
def execAadd (th : Nat) (f : RForm) (s : State) : Host.Outcome State Fault Refusal :=
  s.upd (amo 0x00 (fun old x _ => old + x) th f)
/-- ASWAP (Table 5.9). -/
def execAswap (th : Nat) (f : RForm) (s : State) : Host.Outcome State Fault Refusal :=
  s.upd (amo 0x01 (fun _ x _ => x) th f)
/-- ACAS (Table 5.9). -/
def execAcas (th : Nat) (f : RForm) (s : State) : Host.Outcome State Fault Refusal :=
  s.upd (amo 0x02 (fun old x d => if old = d then x else old) th f)
/-- AMAXU (Table 5.9). -/
def execAmaxu (th : Nat) (f : RForm) (s : State) : Host.Outcome State Fault Refusal :=
  s.upd (amo 0x03 (fun old x _ => if old.ult x then x else old) th f)
/-- AMINU (Table 5.9). -/
def execAminu (th : Nat) (f : RForm) (s : State) : Host.Outcome State Fault Refusal :=
  s.upd (amo 0x04 (fun old x _ => if x.ult old then x else old) th f)

end Sys2Proof.Machine
end

