-- ==== Sys2Proof/Machine/Tensor.lean ====
section
/-! DEFINITION. Tensor descriptors, their checks, views and addresses (chapter 6), and the bytes of an operand in traversal order (R188). -/

namespace Sys2Proof.Machine

/-- A tensor descriptor as copied into a handle (Table 6.2). -/
abbrev Desc := BitVec 1024

def dBase (d : Desc) : Nat := bits d 0 64
def dType (d : Desc) : Nat := bits d 0x40 8
def dRank (d : Desc) : Nat := bits d 0x48 4
def dShape (d : Desc) : Nat := bits d 0x4C 4
def dCtx (d : Desc) : Nat := bits d 0x50 6
def dSpace (d : Desc) : Nat := bits d 0x56 2
/-- NOALLOC: every request for the operand carries it (Table 6.2). -/
def dNoalloc (d : Desc) : Bool := bit d 0x58
def dProgEn (d : Desc) : Bool := bit d 0x59
def dFill (d : Desc) : Nat := bits d 0x60 32
def dSizeRaw (d : Desc) (k : Nat) : Nat := bits d (0x80 + 32 * k) 32
/-- The extent of storage dimension k (R167). -/
def dSize (d : Desc) (k : Nat) : Nat := if dSizeRaw d k = 0 then 2 ^ 32 else dSizeRaw d k
/-- The signed byte stride of storage dimension k. -/
def dStride (d : Desc) (k : Nat) : Int := sext 48 (bits d (0x140 + 48 * k) 48)
def dPerm (d : Desc) : Nat := bits d 0x260 15
def dOwner (d : Desc) : Nat := bits d 0x280 64
def dOwnId (d : Desc) : Nat := bits d 0x2C0 16
def dProg (d : Desc) : Nat := bits d 0x2E0 32

/-- The fields that Table 6.2 reserves are 0. -/
def dReservedZero (d : Desc) : Bool :=
  bits d 0x5A 6 == 0 && bits d 0x26F 17 == 0 && bits d 0x2D0 16 == 0 && bits d 0x300 256 == 0

/-- TYPE is listed in Table 6.1. -/
def typeOk (t : Nat) : Bool := t ≤ 0x08 || (0x10 ≤ t && t ≤ 0x15)

/-- An MX type (Table 6.1). -/
def isScaled (t : Nat) : Bool := 0x10 ≤ t

/-- Element bits (Table 6.1). -/
def typeBits (t : Nat) : Nat :=
  if t ≤ 0x01 then 8 else if t ≤ 0x03 then 16 else if t ≤ 0x05 then 32 else if t ≤ 0x07 then 16 else if t = 0x08 then 32
  else if t ≤ 0x12 then 8 else if t ≤ 0x14 then 6 else 4

/-- Bytes of an unscaled element. -/
def typeBytes (t : Nat) : Nat := typeBits t / 8

/-- Data bytes of an MX block: 32, 24 or 16 (R164). -/
def blockData (t : Nat) : Nat := 4 * typeBits t

/-- Tile bytes (Table 6.1). -/
def tileBytes (t : Nat) : Nat := if isScaled t then 8 + 8 * blockData t else 256 * typeBytes t

/-- The FILL bits that Table 6.1 says are used. (DEDUCED, log entry 27) -/
def fillMask (t : Nat) : Nat :=
  if isScaled t then 0xFF00 + (2 ^ typeBits t - 1) else 2 ^ typeBits t - 1

/-- π[d] (R169). -/
def dPi (d : Desc) (k : Nat) : Nat :=
  if k < 5 then (if dPerm d = 0 then k else dPerm d / 2 ^ (3 * k) % 8) else k

/-- PERM is the identity or an equivalent of it (R173). -/
def permId (d : Desc) : Bool := (List.range 6).all fun k => dPi d k == k

/-- Check 6 of R168. -/
def permOk (d : Desc) : Bool :=
  dPerm d == 0 ||
    ((List.range 5).all fun k => (List.range 5).any fun m => dPi d m == k) &&
    ((List.range 5).all fun k => k < dRank d || dPi d k == k)

/-- The thirteen checks of R168. -/
def descOk (d : Desc) : Bool :=
  let t := dType d
  typeOk t && 1 ≤ dRank d && dRank d ≤ 6 && dShape d ≤ 1 && dSpace d ≤ 1 &&
  ((List.range 6).all fun k => k < dRank d || (dSizeRaw d k == 1 && dStride d k == 0)) &&
  permOk d && (dFill d &&& fillMask t) == dFill d &&
  (if dShape d = 0 then
    (if isScaled t then dSizeRaw d 0 % 32 == 0 && dStride d 0 == 0
     else dBase d % typeBytes t == 0 && (List.range 6).all fun k => dStride d k % typeBytes t == 0)
   else 2 ≤ dRank d && dBase d % 64 == 0 && dStride d 0 == 0 && dStride d 1 == 0 &&
     (List.range 6).all fun k => k < 2 || dStride d k % 64 == 0) &&
  (if dOwner d = 0 then dOwnId d == 0 else dShape d == 1 && dOwner d % 2 == 0 && dOwner d < 2 ^ 48) &&
  (if dProgEn d then dProg d % 8 == 0 else dProg d == 0) &&
  dReservedZero d

/-- The view extent of dimension k (R169). -/
def viewExt (d : Desc) (k : Nat) : Nat := dSize d (dPi d k)

/-- Entry `k` of an index, 0 past its end. -/
def ix (v : List Nat) (k : Nat) : Nat := v.getD k 0

/-- The storage index of a view index (R169): s[π[d]] = v[d]. -/
def storeIx (d : Desc) (v : List Nat) : List Nat :=
  (List.range 6).map fun k => match (List.range 6).find? fun m => dPi d m = k with
    | some m => ix v m
    | none => 0

/-- The view index of a storage index. -/
def viewIx (d : Desc) (s : List Nat) : List Nat := (List.range 6).map fun k => ix s (dPi d k)

/-- A view index lies within the view extents (R174). -/
def inView (d : Desc) (v : List Nat) : Bool := (List.range 6).all fun k => ix v k < viewExt d k

/-- A storage index lies within the extents. -/
def inStore (d : Desc) (s : List Nat) : Bool := (List.range 6).all fun k => ix s k < dSize d k

/-- An address, modulo 2^64 (R170). -/
def addr64 (a : Int) : Nat := (a % 2 ^ 64).toNat

/-- Supertile columns and rows of a plane (R171). -/
def superCols (d : Desc) : Nat := cdiv (dSize d 0) 256
def superRows (d : Desc) : Nat := cdiv (dSize d 1) 64

/-- Σ s[k] × STRIDE[k] over the dimensions from `lo` up. -/
def strideSum (d : Desc) (s : List Nat) (lo : Nat) : Int :=
  ((List.range 6).filter (lo ≤ ·)).foldl (fun acc k => acc + ix s k * dStride d k) 0

/-- The address of the tile that holds a storage index (R171). -/
def tileAddr (d : Desc) (s : List Nat) : Int :=
  let ts := tileBytes (dType d)
  let r := ix s 1
  let c := ix s 0
  (dBase d : Int) + strideSum d s 2 + ((r / 64 * superCols d + c / 256) * (64 * ts) : Nat) +
    ((r / 8 % 8 * 8 + c / 32 % 8) * ts : Nat)

/-- The address of the scale byte of an MX element (R170, R171). -/
def scaleAddr (d : Desc) (s : List Nat) : Nat :=
  if dShape d = 0 then addr64 ((dBase d : Int) + strideSum d s 1 + (ix s 0 / 32 * (1 + blockData (dType d)) : Nat))
  else addr64 (tileAddr d s + (ix s 1 % 8 : Nat))

/-- The address of the data bytes of the MX block that holds an element. -/
def dataAddr (d : Desc) (s : List Nat) : Nat :=
  if dShape d = 0 then addr64 ((dBase d : Int) + strideSum d s 1 + (ix s 0 / 32 * (1 + blockData (dType d)) + 1 : Nat))
  else addr64 (tileAddr d s + (8 + ix s 1 % 8 * blockData (dType d) : Nat))

/-- The address of an unscaled element (R170, R171). -/
def elemAddr (d : Desc) (s : List Nat) : Nat :=
  if dShape d = 0 then addr64 ((dBase d : Int) + strideSum d s 0)
  else addr64 (tileAddr d s + ((ix s 1 % 8 * 32 + ix s 0 % 32) * typeBytes (dType d) : Nat))

/-- The bits [off + len − 1 : off] of an MX element within its block's data bytes (R164). -/
def mxBit (t k : Nat) : Nat := typeBits t * k

/-- A byte of an operand in traversal order: the storage index of the element, or of the first element of the MX
block, and which byte of it: for an MX block `part` 0 is the scale and `part` j + 1 data byte j; for an unscaled
element `part` j is byte j. -/
structure TByte where
  s : List Nat
  part : Nat
  deriving DecidableEq, Repr

/-- The address of a traversal byte. -/
def TByte.addr (d : Desc) (x : TByte) : Nat :=
  if isScaled (dType d) then
    (if x.part = 0 then scaleAddr d x.s else (dataAddr d x.s + x.part - 1) % 2 ^ 64)
  else (elemAddr d x.s + x.part) % 2 ^ 64

/-- All indices below the extents `es`, the first dimension fastest, with `rest` appended. -/
def indexList : List Nat → List (List Nat)
  | [] => [[]]
  | e :: es => (indexList es).flatMap fun r => (List.range e).map fun i => i :: r

/-- The outer storage indices s[2..5] of the planes, s[2] fastest (R188). -/
def planes (d : Desc) : List (List Nat) := indexList [dSize d 2, dSize d 3, dSize d 4, dSize d 5]

/-- The tiles of a plane that lie within the bounds, by supertile and then by tile (R171, R172). -/
def tilesOf (d : Desc) : List (Nat × Nat) :=
  (List.range (superRows d * superCols d)).flatMap fun q =>
    (List.range 64).filterMap fun t =>
      let r := q / superCols d * 64 + t / 8 * 8
      let c := q % superCols d * 256 + t % 8 * 32
      if r < dSize d 1 ∧ c < dSize d 0 then some (r, c) else none

/-- The bytes of a tile in address order, scale bytes first (R188). -/
def tileTBytes (t : Nat) (plane : List Nat) (r c : Nat) : List TByte :=
  if isScaled t then
    ((List.range 8).map fun i => { s := c :: (r + i) :: plane, part := 0 }) ++
      (List.range 8).flatMap fun i => (List.range (blockData t)).map fun j => { s := c :: (r + i) :: plane, part := j + 1 }
  else (List.range 8).flatMap fun i => (List.range 32).flatMap fun k =>
    (List.range (typeBytes t)).map fun j => { s := (c + k) :: (r + i) :: plane, part := j }

/-- The bytes of an operand in storage order, pad elements included (R188). -/
def travAll (d : Desc) : List TByte :=
  let t := dType d
  if dShape d = 1 then (planes d).flatMap fun p => (tilesOf d).flatMap fun rc => tileTBytes t p rc.1 rc.2
  else if isScaled t then
    (indexList [dSize d 0 / 32, dSize d 1, dSize d 2, dSize d 3, dSize d 4, dSize d 5]).flatMap fun s =>
      (List.range (1 + blockData t)).map fun j => { s := 32 * ix s 0 :: s.drop 1, part := j }
  else
    (indexList [dSize d 0, dSize d 1, dSize d 2, dSize d 3, dSize d 4, dSize d 5]).flatMap fun s =>
      (List.range (typeBytes t)).map fun j => { s := s, part := j }

/-- The number of bytes of an operand in storage order. -/
def travLen (d : Desc) : Nat :=
  let outer := dSize d 2 * dSize d 3 * dSize d 4 * dSize d 5
  let t := dType d
  if dShape d = 1 then outer * (cdiv (dSize d 0) 32 * cdiv (dSize d 1) 8) * tileBytes t
  else if isScaled t then outer * dSize d 1 * (dSize d 0 / 32) * (1 + blockData t)
  else outer * dSize d 1 * dSize d 0 * typeBytes t

/-- The elements of an MX block whose bits a traversal byte holds; element 0 for an unscaled type and for a scale. -/
def TByte.elems (d : Desc) (x : TByte) : List Nat :=
  if isScaled (dType d) && x.part ≠ 0 then
    ((List.range 8).map fun i => (8 * (x.part - 1) + i) / typeBits (dType d)).eraseDups
  else [0]

/-- A traversal byte holds bits of some element within the bounds, or of its block's scale: it is no byte of pad elements
alone (R172). -/
def TByte.inBounds (d : Desc) (x : TByte) : Bool :=
  (x.elems d).any fun e => inStore d (x.s.set 0 (ix x.s 0 + e))

/-- The bytes of an operand that is read: no pad rows, and no byte that holds pad elements alone (R172, Table 6.6). -/
def travData (d : Desc) : List TByte := (travAll d).filter (TByte.inBounds d)

/-! Overlap (R184). -/

/-- The storage dimensions whose strides place the runs of an operand: an element, a row of MX blocks, or a plane. -/
def runDims (d : Desc) : List Nat :=
  (List.range 6).filter ((if dShape d = 1 then 2 else if isScaled (dType d) then 1 else 0) ≤ ·)

/-- The bytes of one run of an operand. -/
def runBytes (d : Desc) : Nat :=
  let t := dType d
  if dShape d = 1 then superRows d * superCols d * 64 * tileBytes t
  else if isScaled t then dSize d 0 / 32 * (1 + blockData t)
  else typeBytes t

/-- The lowest and highest byte of an operand before R170's reduction modulo 2^64, as integers. -/
def spanFlat (d : Desc) : Int × Int :=
  let last := fun k => ((dSize d k - 1 : Nat) : Int) * dStride d k
  ((dBase d : Int) + (runDims d).foldl (fun a k => a + min 0 (last k)) 0,
   (dBase d : Int) + (runDims d).foldl (fun a k => a + max 0 (last k)) 0 + runBytes d - 1)

/-- The first bytes of an operand's runs. -/
def runStarts (d : Desc) : List Int :=
  (runDims d).foldl (fun acc k => acc.flatMap fun a => (List.range (dSize d k)).map fun (i : Nat) => a + (i : Int) * dStride d k)
    [(dBase d : Int)]

/-- The span of an operand of which some address wraps, run by run. -/
def spanWrapped (d : Desc) : Int × Int :=
  (runStarts d).foldl (fun acc a =>
    let lo : Int := a % 2 ^ 64
    if lo + runBytes d ≤ 2 ^ 64 then (min acc.1 lo, max acc.2 (lo + runBytes d - 1)) else (0, 2 ^ 64 - 1)) (2 ^ 64 - 1, 0)

/-- The lowest and highest byte of an operand, its addresses taken modulo 2^64 (R170, R184). -/
def span (d : Desc) : Int × Int :=
  let f := spanFlat d
  if 0 ≤ f.1 ∧ f.2 < 2 ^ 64 then f else spanWrapped d

/-- The first byte and the size of the intersection of two operands' spans; size 0 in different spaces (R184). -/
def overlapOf (x y : Desc) : Int × Nat :=
  if dSpace x ≠ dSpace y then (0, 0)
  else
    let lo := max (span x).1 (span y).1
    let hi := min (span x).2 (span y).2
    (lo, (hi - lo + 1).toNat)

/-- R185: equal in TYPE, RANK, SHAPE, every SIZE, every STRIDE and PERM. -/
def sameLayout (x y : Desc) : Bool :=
  dType x == dType y && dRank x == dRank y && dShape x == dShape y && dPerm x == dPerm y &&
  (List.range 6).all fun k => dSizeRaw x k == dSizeRaw y k && dStride x k == dStride y k

/-! Fill (R172, R174, R192). -/

/-- FILL's element bits. -/
def fillElem (d : Desc) : Nat := dFill d % 2 ^ typeBits (dType d)

/-- FILL's scale (MX types). -/
def fillScale (d : Desc) : Nat := dFill d / 256 % 256

/-- A code of a tensor element: its bits, and for an MX type its block's scale 256 times over. -/
def fillCode (d : Desc) : Nat := if isScaled (dType d) then fillScale d * 256 + fillElem d else fillElem d

/-- The elements of an MX data byte `j`: their numbers in the block, from lowest bit up, as runs of bits that the byte
takes: (element, shift of the element, width, shift in the byte) (R164). -/
def mxPieces (t j : Nat) : List (Nat × Nat × Nat × Nat) :=
  let w := typeBits t
  (List.range 8).foldl (fun acc i =>
    let p := 8 * j + i
    acc ++ [(p / w, p % w, 1, i)]) []

/-- The byte `j` of an MX block's data, from the element codes of the block. -/
def mxByte (t j : Nat) (el : Nat → Nat) : Nat :=
  (mxPieces t j).foldl (fun acc x => acc + (el x.1 / 2 ^ x.2.1 % 2) * 2 ^ x.2.2.2) 0

/-- The numbers of the elements that data byte `j` takes bits of. -/
def mxElems (t j : Nat) : List Nat := ((mxPieces t j).map (·.1)).eraseDups

/-- The byte that fills traversal byte `x` (R192). -/
def fillByte (d : Desc) (x : TByte) : Nat :=
  let t := dType d
  if isScaled t then (if x.part = 0 then fillScale d else mxByte t (x.part - 1) fun _ => fillElem d)
  else fillElem d / 256 ^ x.part % 256

/-- The entry of the owner table for the supertile of a storage index (R181). -/
def ownerAddr (d : Desc) (s : List Nat) : Nat :=
  let o := ix s 2 + dSize d 2 * (ix s 3 + dSize d 3 * (ix s 4 + dSize d 4 * ix s 5))
  dOwner d + 2 * ((o * superRows d + ix s 1 / 64) * superCols d + ix s 0 / 256)

/-! Local operands of a command (R142, R153). -/

/-- Where `n` bytes at a local address lie for a command, if its job may reach them. -/
def Block.cmdLocal (b : Block) (c : Cmd) (a n : Nat) : Option Local :=
  match b.findJob c.job with
  | some job => b.local? c.job job (standOf c.thread) a n
  | none => none

/-- The progress word's write (R190): not made where R142 does not permit it. -/
def Block.progWrite (b : Block) (c : Cmd) (d : Desc) (word : Nat) : Block :=
  if dProgEn d then
    match b.cmdLocal c (dProg d) 8 with
    | some l => b.locWrite l 0 (leBytes 8 word)
    | none => b
  else b

/-- The operand whose progress word a command keeps: its destination, TA for SCATTER; OPEN and CLOSE of CODEC have none
(R190, Table 10.2). -/
def Cmd.progDesc (c : Cmd) : Option Desc :=
  match c.op with
  | .skid => some c.tb
  | .codec => if bits c.pb 24 8 = 1 ∨ bits c.pb 24 8 = 2 then none else some c.tb
  | .gather | .win | .rsmp | .warp => some c.tc
  | .scatter | .mmaStore | .takeFrame | .takeRegion | .logrd => some c.ta
  | _ => none

/-- A progress word: HELD, ENDED, STATUS and CURSOR (R190). -/
def progWord (held ended : Bool) (status cursor : Nat) : Nat :=
  b2n held * 2 ^ 63 + b2n ended * 2 ^ 62 + status * 2 ^ 48 + cursor % 2 ^ 48

/-- Write a command's progress word, where it keeps one. (DEDUCED, log entry 29) -/
def Block.progress (b : Block) (c : Cmd) (held ended : Bool) (status cursor : Nat) : Block :=
  match c.progDesc with
  | some d => b.progWrite c d (progWord held ended status cursor)
  | none => b

end Sys2Proof.Machine
end

