-- ==== Sys2Proof/Machine/Tags.lean ====
section
/-! DEFINITION. The ledger of the memory channels (R29, R59, R329, R454): tags, the credits of the agents, the line writes that agents have put together and still owe, and what an agent waits for. -/

namespace Sys2Proof

/-! Agents (R327, R454). -/

/-- An agent of skidder k. -/
def Agent.ofSkidder (k : Nat) : Agent → Bool
  | .skidder j _ => j == k
  | _ => false

def Agent.ofGather : Agent → Bool
  | .gather _ => true
  | _ => false

/-- An agent of the command with this serial number. -/
def Agent.ofCmd (id : Nat) : Agent → Bool
  | .skidder _ i => i == id
  | .gather i => i == id
  | _ => false

/-- The agents that share a cap of R329 or a row of Table 12.2a: a skidder's commands, those of the gather engine, the
landing with the receive ports, the log store, entry reads with entry write-backs, each completion ring, the fault ring, and
the walks. -/
def Agent.group : Agent → Nat
  | .skidder k _ => k
  | .gather _ => 0x100
  | .landing _ | .rxPort _ => 0x101
  | .logStore => 0x102
  | .fetch _ | .own _ => 0x103
  | .faultRing => 0x104
  | .walk => 0x105
  | .ring r => 0x200 + r

/-- A write of a line with one more byte (R330: a partial line goes as a whole line with byte enables). -/
def MemReq.withByte (r : MemReq) (i : Nat) (v : Byte) : MemReq :=
  { r with data := Sys2Proof.Machine.setBits r.data (8 * i) 8 v.toNat, be := Sys2Proof.Machine.setBits r.be i 1 1 }

end Sys2Proof

namespace Sys2Proof.Machine

/-! Tags. -/

/-- The tags of a direction. -/
def Block.tags (b : Block) (write : Bool) : SMap MemTag := if write then b.fk.wrTags else b.fk.rdTags

/-- The tags of a pool (R59). -/
def tagCount (write : Bool) : Nat := if write then 2048 else 4096

/-- The free tags of a pool. -/
def Block.freeTags (b : Block) (write : Bool) : List Nat :=
  (List.range (tagCount write)).filter fun t => (SMap.find (b.tags write) t).isNone

def Block.putTag (b : Block) (write : Bool) (t : Nat) (x : MemTag) : Block :=
  if write then b.setFk fun k => { k with wrTags := SMap.put k.wrTags t x }
  else b.setFk fun k => { k with rdTags := SMap.put k.rdTags t x }

def Block.dropTag (b : Block) (write : Bool) (t : Nat) : Block :=
  if write then b.setFk fun k => { k with wrTags := SMap.erase k.wrTags t }
  else b.setFk fun k => { k with rdTags := SMap.erase k.rdTags t }

/-- The most tags of a direction that an agent's group may hold at once (R329, Table 12.2a). (DEDUCED, log entry 15)
(DEDUCED, log entry 67) -/
def Block.tagCap (b : Block) (write : Bool) (a : Agent) : Nat :=
  match a with
  | .skidder k _ =>
    if write then min 2048 (Nat.max 1 (b.rf (SKD_CFG k) 0 13)) else min 4096 (Nat.max 1 (b.rf (SKD_CFG k) 16 13))
  | .gather _ => if write then 512 else min 4096 (Nat.max 1 (b.rf GE_CFG 16 13))
  | .walk => if write then 0 else 32
  | .fetch _ => if write then 0 else 64
  | .own _ => if write then 64 else 0
  | .ring _ | .faultRing => if write then 1 else 0
  | .landing _ | .rxPort _ => if write then 1024 else 4
  | .logStore => 128

/-- The tags of a direction held by agents that `p` accepts. -/
def Block.tagsOf (b : Block) (write : Bool) (p : Agent → Bool) : Nat :=
  SMap.count (b.tags write) fun _ t => p t.req.agent

/-- The agent's cap leaves room for one more tag (R329, Table 12.2a). An entry write-back is made once at a time.
(DEDUCED, log entry 15) (DEDUCED, log entry 67) -/
def Block.capOk (b : Block) (write : Bool) (a : Agent) : Bool :=
  b.tagsOf write (·.group == a.group) < b.tagCap write a &&
    match a with
    | .own _ => b.tagsOf write (· == a) == 0
    | _ => true

/-! Writes that are owed (R61, R330). -/

/-- The line writes of an agent's group that are owed, in flight, or wait for their retry. -/
def Block.writesOf (b : Block) (a : Agent) : Nat :=
  (b.fk.owed.filter fun x => x.req.agent.group == a.group).length + b.tagsOf true (·.group == a.group) +
    (b.fk.retries.filter fun x => x.req.write && x.req.agent.group == a.group).length

/-- The agent owes a write of a line. -/
def Block.owes (b : Block) (a : Agent) (line : Nat) : Bool :=
  b.fk.owed.any fun x => x.req.agent == a && x.req.line == line

/-- The agent may write to a line: it owes a write of it, or has a credit for one more (R31, R329). -/
def Block.writeRoom (b : Block) (a : Agent) (line : Nat) : Bool := b.owes a line || b.writesOf a < b.tagCap true a

/-- The agent writes a byte: it joins the write of its line that is owed, or begins one. -/
def Block.owe (b : Block) (a : Agent) (pa : Nat) (v : Byte) : Block :=
  let line := pa / 64
  if b.owes a line then
    b.setFk fun k => { k with owed := k.owed.map fun x =>
      if x.req.agent = a ∧ x.req.line = line then { x with req := x.req.withByte (pa % 64) v } else x }
  else
    let r : MemReq := { write := true, line := line, agent := a, data := 0, be := 0 }
    b.setFk fun k => { k with owed := k.owed ++ [{ req := r.withByte (pa % 64) v, serial := k.serial }]
                              serial := k.serial + 1 }

/-- The agent writes bytes at rising addresses. -/
def Block.oweAll (b : Block) (a : Agent) (pa : Nat) : List Byte → Block
  | [] => b
  | v :: vs => (b.owe a pa v).oweAll a (pa + 1) vs

/-- Every write of the agents that `p` accepts is acknowledged (R145): none is owed, in flight, or waits for its retry. -/
def Block.acked (b : Block) (p : Agent → Bool) : Bool :=
  !(b.fk.owed.any fun x => p x.req.agent) && !(b.fk.wrTags.any fun e => p e.2.req.agent) &&
    !(b.fk.retries.any fun x => x.req.write && p x.req.agent)

/-- Every write of the command is acknowledged (R145, R153). -/
def Block.cmdAcked (b : Block) (id : Nat) : Bool := b.acked (Agent.ofCmd id)

/-- A line read of an agent that `p` accepts is in flight, or waits for its retry. -/
def Block.lineAsked (b : Block) (p : Agent → Bool) (line : Nat) : Bool :=
  (b.fk.rdTags.any fun e => p e.2.req.agent && e.2.req.line == line) ||
    b.fk.retries.any fun x => !x.req.write && p x.req.agent && x.req.line == line

/-- The bytes that a write enables reach memory (R61). -/
def Block.putLine (b : Block) (r : MemReq) : Block :=
  b.each ((List.range 64).filter fun i => bit r.be i) fun b i =>
    b.xwrite (64 * r.line + i) [BitVec.ofNat 8 (bits r.data (8 * i) 8)]

end Sys2Proof.Machine
end

