-- ==== Sys2Proof/Machine/Xlate.lean ====
section
/-! DEFINITION. Translation (4.5 to 4.7): walks, the translation cache and its invalidation, suspended transfers with their records, and the final outcome of a memory access (R63, R455). -/

namespace Sys2Proof.Machine

/-! Statuses of Table 14.9. -/

def stDone : Nat := 0x00
def stConcealed : Nat := 0x01
def stCorrupt : Nat := 0x02
def stStraggler : Nat := 0x03
def stStale : Nat := 0x04
def stDetached : Nat := 0x05
def stOverflow : Nat := 0x06
def stMalformed : Nat := 0x10
def stXlate : Nat := 0x11
def stProtect : Nat := 0x12
def stOverlap : Nat := 0x13
def stBoomEmpty : Nat := 0x14
def stTeardown : Nat := 0x20
def stReset : Nat := 0x21
def stEpochStale : Nat := 0x22
def stTransient : Nat := 0x30
def stLasting : Nat := 0x31
def stNoAnswer : Nat := 0x3F

/-! Memory outcomes. -/

/-- The channel of a line (R58), from the channels present. -/
def Block.chanOf (b : Block) (line : Nat) : Nat :=
  match popcount b.ao.straps.mem with
  | 4 => line / 4 % 4
  | 2 => line / 4 % 2
  | _ => 0

/-- GLB_MERR.COUNT (Table 2.12). -/
def Block.merrCount (b : Block) (n : Nat) : Block := b.satAdd GLB_MERR 0 16 n

/-- GLB_MERR captures a failure (R63, Table 2.12): the address registers hold the line. -/
def Block.merrCapture (b : Block) (write : Bool) (code chan line : Nat) : Block :=
  let b :=
    if b.rb GLB_MERR 31 then b.wf GLB_MERR 30 1 1
    else
      let b := (((b.wf GLB_MERR 31 1 1).wf GLB_MERR 29 1 (b2n write)).wf GLB_MERR 27 2 code).wf GLB_MERR 22 2 chan
      (b.setReg GLB_MERR_ADDR_LO (BitVec.ofNat 32 (line * 64))).setReg GLB_MERR_ADDR_HI
        (BitVec.ofNat 32 (line * 64 / 2 ^ 32 % 2 ^ 20))
  b.causeMovement 0

/-- The final outcome of an access to one line, as the step that it belongs to finds it: code 0 is OK; ERROR and POISON
stand for a line whose retry failed too, and are counted twice (R63); NO_TARGET is not retried (Table 2.11). A failure
that the transfer of its response has counted is not counted again. -/
def Block.memFinal (b : Block) (write : Bool) (code line : Nat) : Block :=
  if code % 4 = 0 then b
  else if b.fk.accounted.contains (write, line) then
    b.setFk fun k => { k with accounted := k.accounted.erase (write, line) }
  else (b.merrCount (if code % 4 = 2 then 1 else 2)).merrCapture write (code % 4) (b.chanOf line) line

/-- The status of an access that failed for good (Table 2.11, R63). -/
def memStatus (code : Nat) : Nat := if code % 4 = 2 then stProtect else stLasting

/-! Walks (R114 to R116). -/

def teValid (e : Dword) : Bool := bit e 0
def teLeaf (e : Dword) : Bool := bit e 1
def teRead (e : Dword) : Bool := bit e 2
def teWrite (e : Dword) : Bool := bit e 3
def teNoalloc (e : Dword) : Bool := bit e 4
/-- PA[51:16] (Table 4.6). -/
def teAddr (e : Dword) : Nat := bits e 16 36
/-- A reserved bit of Table 4.6 is set. -/
def teReserved (e : Dword) : Bool := bits e 52 12 ≠ 0 || bits e 5 11 ≠ 0

/-- VA[47:42], VA[41:29] and VA[28:16] (R114). -/
def vaRoot (va : Nat) : Nat := va / 2 ^ 42 % 2 ^ 6
def vaMid (va : Nat) : Nat := va / 2 ^ 29 % 2 ^ 13
def vaBot (va : Nat) : Nat := va / 2 ^ 16 % 2 ^ 13

def zeroRoot (_ : Nat) : Dword := 0

/-- A root entry of a context. -/
def Block.root (b : Block) (ctx k : Nat) : Dword := SMap.get zeroRoot b.fk.xl.roots (ctx * 64 + k)

/-- The table entry at an address, as the memory side holds it. -/
def Block.tableEntry (b : Block) (a : Nat) : Dword := BitVec.ofNat 64 (b.xnat a 8)

/-- The addresses of the middle and of the bottom entry. -/
def midAddr (root : Dword) (va : Nat) : Nat := teAddr root * 2 ^ 16 + 8 * vaMid va
def botAddr (mid : Dword) (va : Nat) : Nat := teAddr mid * 2 ^ 16 + 8 * vaBot va

/-- The result of a walk. -/
inductive Walk where
  | leaf (e : Dword) (large : Bool)
  | fault (kind level : Nat)
  deriving DecidableEq, Repr

/-- R116 without the permission check, which follows it. -/
def Block.walkLeaf (b : Block) (ctx va : Nat) : Walk :=
  let root := b.root ctx (vaRoot va)
  if !teValid root then .fault 0 0
  else if teReserved root || teLeaf root then .fault 2 0
  else
    let mid := b.tableEntry (midAddr root va)
    if !teValid mid then .fault 0 1
    else if teReserved mid || (teLeaf mid && teAddr mid % 2 ^ 13 ≠ 0) then .fault 2 1
    else if teLeaf mid then .leaf mid true
    else
      let bot := b.tableEntry (botAddr mid va)
      if !teValid bot then .fault 0 2
      else if teReserved bot then .fault 2 2
      else .leaf bot false

/-- The leaf allows the access (check 6 of Table 4.7). -/
def leafAllows (e : Dword) (write : Bool) : Bool := if write then teWrite e else teRead e

/-- The walk of R116. -/
def Block.walk (b : Block) (ctx va : Nat) (write : Bool) : Walk :=
  match b.walkLeaf ctx va with
  | .leaf e large => if leafAllows e write then .leaf e large else .fault 1 (if large then 1 else 2)
  | w => w

/-- The physical address that a leaf gives. -/
def leafPa (e : Dword) (large : Bool) (va : Nat) : Nat :=
  if large then teAddr e / 2 ^ 13 * 2 ^ 29 + va % 2 ^ 29 else teAddr e * 2 ^ 16 + va % 2 ^ 16

/-- The line of the last table entry that a walk reads; none where the root entry ends it. -/
def Block.walkLine (b : Block) (ctx va : Nat) : Option Nat :=
  let root := b.root ctx (vaRoot va)
  if !teValid root || teReserved root || teLeaf root then none
  else
    let mid := b.tableEntry (midAddr root va)
    if !teValid mid || teReserved mid || teLeaf mid then some (midAddr root va / 64)
    else some (botAddr mid va / 64)

/-! The translation cache (R121). -/

def Leaf.covers (l : Leaf) (ctx va : Nat) : Bool :=
  l.ctx == ctx && (if l.large then l.page / 2 ^ 13 == va / 2 ^ 29 else l.page == va / 2 ^ 16)

/-- The cached leaf of a page. -/
def Block.cachedLeaf (b : Block) (ctx va : Nat) : Option Leaf := b.fk.xl.cache.find? fun l => l.covers ctx va

/-- A translation from the cache; a cached leaf that fails check 6 counts as a miss, since the block walks the tables
once more (R121). (DEDUCED, log entry 19) -/
def Block.xlate (b : Block) (ctx va : Nat) (write : Bool) : Option Nat :=
  match b.cachedLeaf ctx va with
  | some l => if leafAllows l.entry write then some (leafPa l.entry l.large va) else none
  | none => none

/-- The translation of a byte where no walk may suspend (R192): cached, or walked. -/
def Block.xlateNow (b : Block) (ctx va : Nat) (write : Bool) : Option Nat :=
  match b.xlate ctx va write with
  | some pa => some pa
  | none => match b.walk ctx va write with
    | .leaf e large => some (leafPa e large va)
    | .fault _ _ => none

/-- Put a leaf in the cache in place of the page's old leaf; when the cache is full it takes the place of an entry
that is not defined (R121). (DEDUCED, log entry 19) -/
def Block.cacheLeaf (b : Block) (ctx va : Nat) (e : Dword) (large : Bool) : Block :=
  let l : Leaf := { ctx := ctx, page := if large then va / 2 ^ 29 * 2 ^ 13 else va / 2 ^ 16, large := large, entry := e }
  let rest := b.fk.xl.cache.filter fun x => !x.covers ctx va
  if rest.length < 4096 then b.setXl fun x => { x with cache := l :: rest }
  else (b.setXl fun x => { x with cache := l :: rest.eraseIdx (b.fresh % rest.length) }).used

/-! Suspension (R124 to R126). -/

/-- What a transfer waits for. -/
def Block.needOf (b : Block) (w : Suspender) : Option Need :=
  match w with
  | .cmd id => match b.findCmd id with
    | some c => c.need
    | none => none
  | .deck c => match SMap.find b.fk.decks c with
    | some d => d.need
    | none => none
  | .rxPort r => match SMap.find b.fk.flume.rx r with
    | some d => d.need
    | none => none

/-- Change what a transfer waits for. -/
def Block.setNeed (b : Block) (w : Suspender) (n : Option Need) : Block :=
  match w with
  | .cmd id => b.modCmd id fun c => { c with need := n }
  | .deck c => b.setFk fun k => { k with decks := SMap.modify k.decks c fun d => { d with need := n } }
  | .rxPort r => b.setFlume fun f => { f with rx := SMap.modify f.rx r fun d => { d with need := n } }

/-- A transfer fails with a status: its rest takes fill (R63, R192, R352). Of a command whose work is over, and whose last
writes are not yet acknowledged, the failure is the status (R63, R153). -/
def Block.failWho (b : Block) (w : Suspender) (st : Nat) : Block :=
  match w with
  | .cmd id => b.modCmd id fun c => match c.phase with
    | .finished x => if x < 0x10 then { c with phase := .finished st } else c
    | _ => { c with fail := some st, need := none }
  | .deck c => b.setFk fun k => { k with decks := SMap.modify k.decks c fun d => { d with fail := some st, need := none } }
  | .rxPort r => b.setFlume fun f => { f with rx := SMap.modify f.rx r fun d => { d with fail := some st, need := none } }

/-- The transfer is suspended or holds for an FID. -/
def Block.isSusp (b : Block) (w : Suspender) : Bool :=
  b.fk.xl.fids.any (fun e => e.2.who == w) || b.fk.xl.holding.any fun x => x.who == w

/-- A fault record without its PHASE (Table 4.8). -/
def recordBits (fid : Nat) (x : Susp) : BitVec 256 :=
  let n := x.need
  let w0 := n.agent * 2 ^ 28 + x.level * 2 ^ 26 + x.kind * 2 ^ 24 + b2n n.write * 2 ^ 22 + n.ctx % 64 * 2 ^ 16 +
    x.seq.toNat * 2 ^ 8 + fid
  let w1 := n.unit * 2 ^ 22 + n.sq * 2 ^ 16 + n.tag
  BitVec.ofNat 256 (w0 + w1 * 2 ^ 32 + n.va % 2 ^ 48 * 2 ^ 64 + n.cursor % 2 ^ 64 * 2 ^ 128 + n.total % 2 ^ 64 * 2 ^ 192)

def zeroSeq (_ : Nat) : Byte := 0

/-- The free fault identifiers. -/
def Block.freeFids (b : Block) : List Nat := (List.range 256).filter fun i => (SMap.find b.fk.xl.fids i).isNone

/-- A faulting transfer takes a free FID and its record, or holds without one (R124). -/
def Block.takeFid (b : Block) (x : Susp) : Block :=
  match b.pick b.freeFids with
  | none => b.setXl fun t => { t with holding := t.holding ++ [x] }
  | some fid =>
    let seq := SMap.get zeroSeq b.fk.xl.seqs fid + 1
    let x := { x with seq := seq }
    b.used.setXl fun t =>
      { t with fids := SMap.put t.fids fid x, seqs := SMap.set zeroSeq t.seqs fid seq,
               records := t.records ++ [recordBits fid x] }

/-- A transfer suspends at its cursor (R124, R189), and its progress word says so (R190): once, also where it holds for
want of an FID, and not again when it takes one. (DESIGN CHOICE, log entry 84) -/
def Block.suspend (b : Block) (w : Suspender) (n : Need) (kind level : Nat) : Block :=
  let b := (b.setNeed w none).takeFid { who := w, need := n, level := level, kind := kind, seq := 0 }
  match w with
  | .cmd id => match b.findCmd id with
    | some c => (b.progress c true false 0 c.cursor).setCmd id { c with phase := .suspended, active := false, lines := [] }
    | none => b
  | _ => b

/-- Two addresses lie in one page: of 512 MiB or of 64 KiB. -/
def samePage (large : Bool) (va va' : Nat) : Bool :=
  if large then va / 2 ^ 29 == va' / 2 ^ 29 else va / 2 ^ 16 == va' / 2 ^ 16

/-- Every transfer that may wait for a translation. -/
def Block.transfers (b : Block) : List Suspender :=
  b.fk.cmds.map (fun e => .cmd e.1) ++ b.fk.decks.map (fun e => .deck e.1) ++ b.fk.flume.rx.map (fun e => .rxPort e.1)

/-- The other transfers whose misses on the same page in the same context share a walk (R118).
(DEDUCED, log entry 19) -/
def Block.sharers (b : Block) (w : Suspender) (n : Need) (large : Bool) : List Suspender :=
  b.transfers.filter fun v => v != w && match b.needOf v with
    | some m => m.ctx == n.ctx && samePage large m.va n.va
    | none => false

/-- A walk is of a large page. -/
def Walk.isLarge : Walk → Bool
  | .leaf _ large => large
  | .fault _ _ => false

/-- A walk answers a transfer: its leaf allows the access, or the transfer suspends. (DEDUCED, log entry 19) -/
def Block.serveWalk (r : Walk) (b : Block) (w : Suspender) : Block :=
  match b.needOf w with
  | none => b
  | some n => match r with
    | .leaf e large =>
      if leafAllows e n.write then b.setNeed w none else b.suspend w n 1 (if large then 1 else 2)
    | .fault kind level => b.suspend w n kind level

/-- A walk's answer suspends a transfer. -/
def Block.walkFails (r : Walk) (b : Block) (w : Suspender) : Bool :=
  match b.needOf w, r with
  | none, _ => false
  | some n, .leaf e _ => !leafAllows e n.write
  | some _, .fault _ _ => true

/-- Every byte before the transfer's cursor is delivered and visible, so that it may suspend (R189, R352). -/
def Block.suspReady (b : Block) : Suspender → Bool
  | .cmd id => b.cmdAcked id
  | .deck c => b.acked (· == .landing c)
  | .rxPort r => b.acked (· == .rxPort r)

/-- The queue for which a walk counts: that of the transfer's job, if a job made it. (DEDUCED, log entry 19) -/
def Need.queue (n : Need) : Option Nat := if n.sq = 0x3F ∧ n.tag = 0xFFFF then none else some n.sq

/-- The walk for the translation that a transfer waits for: it is counted once, and it yields a leaf, a suspension, or the
failure of its table read, for every transfer that shares it (R116, R118, R63). It is answered once those that it
suspends have delivered what is before their cursors (R189). (DEDUCED, log entry 19) -/
def Block.doWalk (b : Block) (w : Suspender) (n : Need) (code : Nat) : Block :=
  let t := b.tally 0x28 0x3F n.queue 1
  match b.walkLine n.ctx n.va, code % 4 with
  | some line, c + 1 => (t.memFinal false (c + 1) line).each (w :: b.sharers w n false) fun b v => b.failWho v (memStatus (c + 1))
  | _, _ =>
    let r := b.walkLeaf n.ctx n.va
    let served := w :: b.sharers w n r.isLarge
    if served.all fun v => !b.walkFails r v || b.suspReady v then
      (match r with
        | .leaf e large => t.cacheLeaf n.ctx n.va e large
        | .fault _ _ => t).each served (Block.serveWalk r)
    else b

/-- The transfer that a walk serves, by its kind: 0 a command, 1 a deck channel, 2 a receive port. -/
def suspender (kind n : Nat) : Option Suspender :=
  if kind = 0 then some (.cmd n) else if kind = 1 then some (.deck n) else if kind = 2 then some (.rxPort n) else none

/-- TRANSLATION_WALK (R116, R118): the walk answers the transfer that waits for it; a walk that nothing waits for
changes nothing (DEDUCED, log entry 5). `code` is the final outcome of its table reads. -/
def execTranslationWalk (kind n va : Nat) (write : Bool) (code : Nat) (s : State) : Host.Outcome State Fault Refusal :=
  s.upd fun b => b.whenLive fun b =>
    match suspender kind n with
    | none => b
    | some w => match b.needOf w with
      | some x => b.guard (x.va == va && x.write == write) fun b => b.doWalk w x code
      | none => b

/-- FID_WAIT_GRANT (R124): the oldest transfer that holds without an FID takes a free one. -/
def execFidWaitGrant (s : State) : Host.Outcome State Fault Refusal :=
  s.upd fun b => b.whenLive fun b =>
    match b.fk.xl.holding with
    | [] => b
    | x :: rest => b.guard (!b.freeFids.isEmpty) fun b => (b.setXl fun t => { t with holding := rest }).takeFid x

/-- SIZE as it acts (R128): a power of two from 16 to 4,096, else 0. -/
def ringSize (raw top : Nat) : Nat := if 16 ≤ raw ∧ raw ≤ top ∧ raw &&& (raw - 1) = 0 then raw else 0

def Block.fqSize (b : Block) : Nat := ringSize (b.rf XL_FQ_SIZE 0 13) 4096
def Block.fqTail (b : Block) : Nat := b.rf XL_FQ_TAIL 0 12
def Block.fqHead (b : Block) : Nat := b.rf XL_FQ_HEAD 0 12

/-- `n` free bytes: the content of a line whose write failed (R63, R455). -/
def freeBytes (b : Block) (n : Nat) : List Byte := leBytes n b.fresh

/-- A record of 32 bytes reaches memory, or its write fails for good (R455). (DEDUCED, log entry 62) -/
def Block.writeRecord (b : Block) (a : Nat) (r : BitVec 256) (code : Nat) : Block :=
  if code % 4 = 0 then b.xwrite a (leBytes 32 r.toNat)
  else if code % 4 = 2 then b.memFinal true code (a / 64)
  else ((b.xwrite a (freeBytes b 32)).used).memFinal true code (a / 64)

/-- The oldest waiting record is written while the ring has room (R125, R126). -/
def Block.writeFaultRecord (b : Block) (code : Nat) : Block :=
  match b.fk.xl.records with
  | [] => b
  | r :: rest =>
    let size := b.fqSize
    let tail := b.fqTail
    if size = 0 ∨ (tail + 1) % size = b.fqHead then b
    else
      let r := if b.fk.xl.pass then r ||| BitVec.ofNat 256 (2 ^ 31) else r
      let b := b.writeRecord (b.pair XL_FQ_BASE_LO + 32 * tail) r code
      let b := b.setXl fun t => { t with records := rest, pass := if tail + 1 = size then !t.pass else t.pass }
      (b.setReg XL_FQ_TAIL (BitVec.ofNat 32 ((tail + 1) % size))).causeMovement 1

/-- FAULT_RECORD_WRITE (R125, R455). -/
def execFaultRecordWrite (code : Nat) (s : State) : Host.Outcome State Fault Refusal :=
  s.upd fun b => b.whenLive (·.writeFaultRecord code)

/-- BADACT (Table 4.9). -/
def Block.badAct (b : Block) : Block := b.satAdd XL_FQ_STAT 0 14 1

/-- An XL_FQ_HEAD write (R129). (DEDUCED, log entry 21) -/
def Block.xlFqHead (b : Block) (data : Word) : Block :=
  let size := b.fqSize
  let h := bits data 0 12
  if size ≠ 0 ∧ h < size ∧ (h + size - b.fqHead) % size ≤ (b.fqTail + size - b.fqHead) % size then
    b.setReg XL_FQ_HEAD (BitVec.ofNat 32 h)
  else b.badAct

/-- Nothing is suspended and no record waits (R128). -/
def Block.fqIdle (b : Block) : Bool := b.fk.xl.fids.isEmpty && b.fk.xl.records.isEmpty

/-- A write to XL_FQ_BASE_LO, XL_FQ_BASE_HI or XL_FQ_SIZE (R128). (DEDUCED, log entry 21) -/
def Block.xlFqConfig (b : Block) (o : Nat) (data : Word) : Block :=
  b.guard b.fqIdle fun b =>
    if o = XL_FQ_BASE_LO then b.stageLo o data
    else if o = XL_FQ_BASE_HI then b.commitPair XL_FQ_BASE_LO data
    else if o = XL_FQ_SIZE then
      (((b.writeReg XL_FQ_SIZE data).setReg XL_FQ_HEAD 0).setReg XL_FQ_TAIL 0).setXl fun t => { t with pass := true }
    else b

/-- XL_FQ_HEAD_WRITE (R129). -/
def execXlFqHeadWrite (data : Word) (s : State) : Host.Outcome State Fault Refusal :=
  s.upd fun b => b.portWrite XL_FQ_HEAD data (·.xlFqHead data)

/-- The offset is one of XL_FQ_BASE_LO, XL_FQ_BASE_HI and XL_FQ_SIZE. -/
def isFqConfig (o : Nat) : Bool := o == XL_FQ_BASE_LO || o == XL_FQ_BASE_HI || o == XL_FQ_SIZE

/-- XL_FQ_CONFIG_WRITE (R128). -/
def execXlFqConfigWrite (off : BitVec 20) (data : Word) (s : State) : Host.Outcome State Fault Refusal :=
  s.upd fun b => b.guard (isFqConfig off.toNat) fun b => b.portWrite off.toNat data (·.xlFqConfig off.toNat data)

/-! Invalidation (R122). -/

/-- A leaf lies in the scope of an invalidation. -/
def Inval.takes (v : Inval) (l : Leaf) : Bool :=
  if v.scope = 0 then true
  else if v.scope = 2 then
    l.ctx == v.ctx && overlaps (v.va / 2 ^ 16) (Nat.max 1 v.pages) l.page (if l.large then 2 ^ 13 else 1)
  else l.ctx == v.ctx

/-- Remove the cached translations in a scope. -/
def Block.purge (b : Block) (v : Inval) : Block := b.setXl fun t => { t with cache := t.cache.filter fun l => !v.takes l }

/-- An agent's accesses use translations of a scope. (DEDUCED, log entry 20) -/
def Block.agentInScope (b : Block) (v : Inval) (a : Agent) : Bool :=
  let cmd := fun (id : Nat) => match b.findCmd id with
    | some c => match b.findJob c.job with
      | some j => v.scope == 0 || j.ctx == v.ctx
      | none => true
    | none => true
  match a with
  | .skidder _ id => cmd id
  | .gather id => cmd id
  | .landing c => match SMap.find b.fk.decks c with
    | some d => v.scope == 0 || bits d.ctrl 16 6 == v.ctx
    | none => true
  | .rxPort r => v.scope == 0 || b.rf (FL_RXP r 0x00) 24 6 == v.ctx
  | _ => false

/-- The serial numbers of the accesses in flight that an invalidation waits for. (DEDUCED, log entry 20) -/
def Block.invWaits (b : Block) (v : Inval) : List Nat :=
  ((b.fk.rdTags ++ b.fk.wrTags).filter fun e => b.agentInScope v e.2.req.agent).map (fun e => e.2.serial) ++
    ((b.fk.retries ++ b.fk.owed).filter fun r => b.agentInScope v r.req.agent).map fun r => r.serial

/-- The scope of one context. -/
def Inval.ofCtx (c : Nat) : Inval := { scope := 1, ctx := c, va := 0, pages := 0, waits := [] }

/-- Every read and write of a context has its response (Table 14.8 step 4). -/
def Block.ctxQuiet (b : Block) (c : Nat) : Bool := (b.invWaits (Inval.ofCtx c)).isEmpty

/-- An XL_INV write (R122). (DEDUCED, log entry 20) -/
def Block.xlInv (b : Block) (data : Word) : Block :=
  if bit data 8 then
    if b.fk.xl.inval.isSome then b
    else
      let b := b.writeReg XL_INV data
      let v : Inval := { scope := bits data 0 2, ctx := bits data 16 6, va := b.pair XL_INV_VA_LO,
                         pages := (b.reg XL_INV_PAGES).toNat, waits := [] }
      (b.purge v).setXl fun t => { t with inval := some { v with waits := b.invWaits v } }
  else b.writeReg XL_INV data

/-- XL_INV_GO (R122). -/
def execXlInvGo (data : Word) (s : State) : Host.Outcome State Fault Refusal :=
  s.upd fun b => b.portWrite XL_INV data (·.xlInv data)

/-- An access is still in flight. -/
def Block.serialInUse (b : Block) (n : Nat) : Bool :=
  b.fk.rdTags.any (fun e => e.2.serial == n) || b.fk.wrTags.any (fun e => e.2.serial == n) ||
    (b.fk.retries ++ b.fk.owed).any fun r => r.serial == n

/-- XL_INV_DONE (R122). (DEDUCED, log entry 20) -/
def execXlInvDone (s : State) : Host.Outcome State Fault Refusal :=
  s.upd fun b => b.whenLive fun b =>
    match b.fk.xl.inval with
    | none => b
    | some v => b.guard (v.waits.all fun n => !b.serialInUse n) fun b =>
        (b.purge v).setXl fun t => { t with inval := none }

end Sys2Proof.Machine
end

