-- ==== Sys2Proof/Machine/Control.lean ====
section
/-! DEFINITION. Counters, epochs, handles and boom buffers of a thread (Table 5.11, R147 to R150, R336 to R338). -/

namespace Sys2Proof.Machine

/-- A SYNC instruction: its counter, or the exception COUNTER (R147). -/
def syncInstr (fn : Nat) (b : Block) (th : Nat) (f : SForm) (act : Job → Thread → Nat → IRes) : Block :=
  b.instr th (wordS 0x1C fn f) 4 fun job t =>
    match b.resolveCtr job f.sh (t.sc f.cr + f.ctr.zeroExtend 64).toNat with
    | none => .raise excCounter
    | some n => act job t n

/-- The operand of SIGNAL and WAIT: sV[31:0], or `d` where V is 0 (Table 5.11). -/
def syncOperand (t : Thread) (f : SForm) (d : Nat) : Nat := if f.v = 0 then d else bits (t.sc f.v) 0 32

/-- SIGNAL (R107, R109, R147). -/
def execSignal (th : Nat) (f : SForm) (s : State) : Host.Outcome State Fault Refusal :=
  s.upd fun b => syncInstr 0 b th f fun job t n => .done (t.adv 4) (·.signal n (syncOperand t f 1) t.ep job.sq)

/-- WAIT (R107, R147): it holds the thread, at this instruction, until the counter reaches the target. -/
def execWait (th : Nat) (f : SForm) (s : State) : Host.Outcome State Fault Refusal :=
  s.upd fun b => syncInstr 1 b th f fun _ t n =>
    let target := BitVec.ofNat 32 (syncOperand t f 0)
    if reached (b.counter n).value target then t.next else .done { t with hold := .wait n target } id

/-- SRD (R147). -/
def execSrd (th : Nat) (f : SForm) (s : State) : Host.Outcome State Fault Refusal :=
  s.upd fun b => syncInstr 2 b th f fun _ t n => (t.setSc f.v ((b.counter n).value.zeroExtend 64)).next

/-- An instruction of the EPOCH or BOOM group, a scalar instruction of format R: W and P must be 0 (R138).
(DEDUCED, log entry 24) -/
def groupR (major fn : Nat) (b : Block) (th : Nat) (f : RForm) (act : Job → Thread → IRes) : Block :=
  b.instr th (wordR major fn f) 4 fun job t => if f.w ≠ 0 ∨ f.p ≠ 0 then .raise excIllegal else act job t

/-- The current epoch of a deck channel (Table 12.5). -/
def Block.deckEpoch (b : Block) (c : Nat) : Byte := BitVec.ofNat 8 (b.rf (DK_CTRL c) 0 8)

/-- EPOCH.GET (R147, R344): the channel is CHAN of the deck identifier. -/
def execEpochGet (th : Nat) (f : RForm) (s : State) : Host.Outcome State Fault Refusal :=
  s.upd fun b => groupR 0x1D 0 b th f fun _ t =>
    (t.setSc f.d ((b.deckEpoch (bits (t.sc f.a) 0 6)).zeroExtend 64)).next

/-- EPOCH.SET (R148). -/
def execEpochSet (th : Nat) (f : RForm) (s : State) : Host.Outcome State Fault Refusal :=
  s.upd fun b => groupR 0x1D 1 b th f fun _ t => { t with ep := (t.sc f.a).truncate 8 }.next

/-- An instruction of the TH group: D names a handle (R132). -/
def handleI (fn : Nat) (b : Block) (th : Nat) (f : IForm) (act : Job → Thread → IRes) : Block :=
  b.instr th (wordI 0x1E fn f) 4 fun job t => if vecOk f.d then act job t else .raise excIllegal

/-- The descriptor bound to a handle. -/
def Thread.handle (t : Thread) (i : Nat) : Option (BitVec 1024) := SMap.find t.t i

/-- TBIND (R142, R143, R149). -/
def execTbind (th : Nat) (f : IForm) (s : State) : Host.Outcome State Fault Refusal :=
  s.upd fun b => handleI 0 b th f fun job t =>
    match b.access job t th (t.sc f.a + f.imm.signExtend 64) 128 128 with
    | .error c => .raise c
    | .ok l =>
      let d := BitVec.ofNat 1024 (b.locBits l 128)
      if descOk d then { t with t := SMap.put t.t f.d.toNat d }.next else .raise excHandle

/-- A descriptor with another BASE. -/
def withBase (d : BitVec 1024) (a : Dword) : BitVec 1024 := setBits d 0 64 a.toNat

/-- TADV (R149). -/
def execTadv (th : Nat) (f : IForm) (s : State) : Host.Outcome State Fault Refusal :=
  s.upd fun b => handleI 1 b th f fun _ t =>
    match t.handle f.d.toNat with
    | none => .raise excHandle
    | some d =>
      let a := BitVec.ofNat 64 (dBase d) + t.sc f.a + f.imm.signExtend 64
      { t with t := SMap.put t.t f.d.toNat (withBase d a) }.next

/-- TREL (Table 5.11). -/
def execTrel (th : Nat) (f : IForm) (s : State) : Host.Outcome State Fault Refusal :=
  s.upd fun b => handleI 2 b th f fun _ t =>
    if f.a ≠ 0 ∨ f.imm ≠ 0 then .raise excIllegal else { t with t := SMap.erase t.t f.d.toNat }.next

/-- The smallest boom whose buffers hold `size` bytes. -/
def boomFor (size : Nat) : Nat := ((List.range 8).filter fun k => size ≤ boomSize k).headD 7

/-- BALLOC and BALLOCN (R150, R336): a buffer, or 0 at once for a size out of range; with none free, BALLOCN gives 0
and BALLOC joins the boom waiters. -/
def ballocAct (b : Block) (th : Nat) (wait : Bool) (f : RForm) (job : Job) (t : Thread) : IRes :=
  let size := (t.sc f.a).toNat
  if size = 0 ∨ 4 * 2 ^ 20 < size then (t.setSc f.d 0).next
  else match b.pick (b.allocFrom size (standOf th)) with
    | some key =>
      .done ((t.setSc f.d (BitVec.ofNat 64 (b.bufAddr key))).adv 4) fun b => b.used.boomTake key (.job t.job)
    | none =>
      if wait then
        .done { t with hold := .balloc f.d.toNat size } fun b =>
          (b.setFk fun k => { k with booms := { k.booms with waiters := k.booms.waiters ++ [.thread th] } }).tally
            0x2B (boomFor size) (some job.sq) 1
      else (t.setSc f.d 0).next

/-- BALLOC (R150). -/
def execBalloc (th : Nat) (f : RForm) (s : State) : Host.Outcome State Fault Refusal :=
  s.upd fun b => groupR 0x1F 0 b th f (ballocAct b th true f)

/-- BALLOCN (R150). -/
def execBallocn (th : Nat) (f : RForm) (s : State) : Host.Outcome State Fault Refusal :=
  s.upd fun b => groupR 0x1F 1 b th f (ballocAct b th false f)

/-- The place and the offset in it that a local address reaches beyond the job's region (Table 5.8). -/
def placeOf (stand a : Nat) : Option (Nat × Nat) :=
  if 0x20000000 ≤ a ∧ a < 0x20000000 + standBytes then some (stand, a - 0x20000000)
  else if 0x40000000 ≤ a ∧ a < 0x40000000 + landBytes then some (landPlace, a - 0x40000000)
  else none

/-- Boom k has a region in a place, and offset `x` lies in it. -/
def Block.inBoom (b : Block) (k place x : Nat) : Bool :=
  (b.boomStands k == (place != landPlace)) && b.boomBase k ≤ x && x < b.boomBase k + b.boomCount k * boomSize k

/-- The checks of R338: the buffer, or the reason and the boom of the refusal. -/
def Block.checkPtr (b : Block) (j stand a : Nat) : Except (Nat × Nat) Nat :=
  match placeOf stand a with
  | none => .error (1, 0)
  | some (place, x) =>
    match (List.range 8).find? fun k => b.inBoom k place x with
    | none => .error (1, 0)
    | some k =>
      if (x - b.boomBase k) % boomSize k ≠ 0 then .error (2, k)
      else
        let key := bufKey k place ((x - b.boomBase k) / boomSize k)
        match b.boomHolder key with
        | none => .error (4, k)
        | some h => if h = .job j then .ok key else .error (3, k)

/-- A refused pointer is counted and captured (R338, Table 12.3). -/
def Block.badPtr (b : Block) (reason pool a : Nat) : Block :=
  let b := b.satAdd BOOM_BADPTR 0 16 1
  let b :=
    if b.rb BOOM_BADPTR 31 then b
    else
      (((b.wf BOOM_BADPTR 31 1 1).wf BOOM_BADPTR 28 3 reason).wf BOOM_BADPTR 16 3 pool).setReg BOOM_BADPTR_ADDR
        (BitVec.ofNat 32 a)
  b.causeMovement 3

/-- BFREE (R150, R338, R339). -/
def execBfree (th : Nat) (f : RForm) (s : State) : Host.Outcome State Fault Refusal :=
  s.upd fun b => groupR 0x1F 2 b th f fun _ t =>
    let a := (t.sc f.a).toNat
    match b.checkPtr t.job (standOf th) a with
    | .ok key => .done ((t.setSc f.d 0).adv 4) (·.giveBack [key])
    | .error (reason, pool) => .done ((t.setSc f.d 1).adv 4) (·.badPtr reason pool a)

end Sys2Proof.Machine
end

