-- ==== Sys2Proof/Machine/TensorIssue.lean ====
section
/-! DEFINITION. Tensor issue (5.6): the fields of each instruction (Table 5.12), sending a command to its unit (R151, R152, R159), and the end of a command (R153). -/

namespace Sys2Proof.Machine

/-- What Table 5.12 says of a tensor-issue instruction: the handles it names, whether SX and SY are used, whether SX
holds a parameter block, the MOD bits it names, whether MOD holds DIM, and the values of IMM6. -/
structure TSpec where
  op : TOp
  major : Nat
  maxOp : Nat
  a : Bool
  b : Bool
  c : Bool
  sx : Bool
  sy : Bool
  param : Bool
  modMask : Nat
  dim : Bool
  imms : List Nat

/-- A row of Table 5.12 whose further fields are "—". -/
def tspec (op : TOp) (major : Nat) (a b c param : Bool) (modMask : Nat) : TSpec :=
  { op := op, major := major, maxOp := 31, a := a, b := b, c := c, sx := param, sy := false, param := param,
    modMask := modMask, dim := false, imms := [0] }

def specMma : TSpec := tspec .mma 0x20 true true false false 0xF
def specMmaZero : TSpec := tspec .mmaZero 0x20 false false false false 0xF
def specMmaStore : TSpec := tspec .mmaStore 0x20 true false false false 0xF
def specConv : TSpec := tspec .win 0x21 true true true true 0x3
def specWin : TSpec := tspec .win 0x21 true false true true 0x3
def specRsmp : TSpec := tspec .rsmp 0x22 true false true true 0x3
def specWarp : TSpec := tspec .warp 0x23 true false true true 0x3
def specSkid : TSpec := { tspec .skid 0x24 true true false false 0 with maxOp := 16 }
def specGather : TSpec := { tspec .gather 0x25 true true true false 0x7 with maxOp := 17, dim := true }
def specScatter : TSpec := { tspec .scatter 0x26 true true true false 0x7 with maxOp := 16, dim := true }
def specTakeFrame : TSpec := tspec .takeFrame 0x27 true false false true 0
def specTakeRegion : TSpec := tspec .takeRegion 0x27 true false false true 0
def specCodec : TSpec := tspec .codec 0x28 true true false true 0
def specLogrd : TSpec := tspec .logrd 0x29 true false false true 0
def specLogwr : TSpec := tspec .logwr 0x2A true false false true 0
def specSlotPlace : TSpec :=
  { tspec .slotPlace 0x2B true false false false 0 with sx := true, sy := true, imms := [0, 1] }
def specSlotVoid : TSpec :=
  { tspec .slotVoid 0x2B false false false false 0 with sx := true, sy := true, imms := [2, 4, 6] }

/-- A command of this operation has a parameter block (Table 5.12). -/
def TOp.param : TOp → Bool
  | .win | .rsmp | .warp | .takeFrame | .takeRegion | .codec | .logrd | .logwr => true
  | .mma | .mmaZero | .mmaStore | .skid | .gather | .scatter | .slotPlace | .slotVoid => false

/-- Some field of the instruction lies outside Table 5.12 (R136, R151). (DEDUCED, log entry 24) -/
def TSpec.illegal (p : TSpec) (f : TForm) : Bool :=
  p.maxOp < f.op.toNat || (!p.a && f.ta ≠ 0) || (!p.b && f.tb ≠ 0) || (!p.c && f.tc ≠ 0) ||
  (!p.sx && f.sx ≠ 0) || (!p.sy && f.sy ≠ 0) || f.md.toNat &&& p.modMask ≠ f.md.toNat ||
  (p.dim && 5 < f.md.toNat % 8) || !p.imms.contains f.imm.toNat

/-- A handle that a field names, where the instruction uses the field. -/
def Thread.named (t : Thread) (uses : Bool) (i : BitVec 4) : Option (BitVec 1024) :=
  if uses then t.handle i.toNat else some 0

/-- Commands held in the queue of a unit (Table 5.15): a suspended command is held by its FID (R328), and a parked
SLOT has left the queue (R347); the gather engine keeps its own (R333). (DEDUCED, log entry 25)
(DEDUCED, log entry 30) -/
def Block.queuedIn (b : Block) (u : CmdUnit) : Nat :=
  SMap.count b.fk.cmds fun _ c => c.unit == u && (c.phase ≠ .suspended || u == .gather) &&
    !((c.op == .slotPlace || c.op == .slotVoid) && c.active)

/-- The places of a unit's queue (Table 5.15). (DEDUCED, log entry 25) -/
def unitPlaces : CmdUnit → Nat
  | .engine _ => 16
  | .skidder _ => 32
  | .gather => 256
  | .take _ => 8
  | .session _ => 4
  | .records _ => 4
  | .openAny => 4
  | .logStore => 64
  | .landing _ => 64

/-- The skidder in service with the fewest held commands, the lower number on a tie (R37, R151, R327).
(DEDUCED, log entry 25) -/
def Block.leastSkidder (b : Block) : Nat :=
  let ks := (List.range 16).filter fun k => !b.isOut (unitId 0x6 k)
  ks.foldl (fun best k => if b.queuedIn (.skidder k) < b.queuedIn (.skidder best) then k else best) (ks.headD 0)

/-- Word `i` of a parameter block. -/
def pbW (pb : BitVec 512) (i : Nat) : Nat := bits pb (32 * i) 32

/-- The CMD, UNIT and NUM fields of a CODEC parameter block (Table 10.1). -/
def cdCmd (pb : BitVec 512) : Nat := bits pb 24 8
def cdUnit (pb : BitVec 512) : Nat := bits pb 22 2
def cdNum (pb : BitVec 512) : Nat := bits pb 16 6

/-- The unit of a command (Table 5.12). -/
def Block.unitOf (b : Block) (op : TOp) (f : TForm) (th : Nat) (pb : BitVec 512) : CmdUnit :=
  match op with
  | .mma | .mmaZero | .mmaStore | .win | .rsmp | .warp => .engine (4 * standOf th + f.md.toNat % 4)
  | .skid | .scatter => .skidder (if f.op = 16 then b.leastSkidder else f.op.toNat)
  | .gather => if f.op = 17 then .gather else .skidder (if f.op = 16 then b.leastSkidder else f.op.toNat)
  | .takeFrame | .takeRegion => .take (bits pb 0 6)
  | .codec =>
    if cdCmd pb = 1 ∧ cdNum pb = 0x3F then .openAny
    else if cdUnit pb = 1 then .records (cdNum pb) else .session (cdNum pb)
  | .logrd | .logwr => .logStore
  | .slotPlace | .slotVoid => .landing (standOf th)

/-- The parameter block of an instruction (R142, R143, R152). -/
def Block.readPb (b : Block) (p : TSpec) (job : Job) (t : Thread) (th : Nat) (f : TForm) : Except Nat (BitVec 512) :=
  if p.param then
    match b.access job t th (t.sc f.sx) 64 64 with
    | .error c => .error c
    | .ok l => .ok (BitVec.ofNat 512 (b.locBits l 64))
  else .ok 0

/-- The counter of an instruction (R152): the exception, or the counter where INC is not 0. -/
def Block.issueCtr (b : Block) (job : Job) (f : TForm) : Except Nat (Option Nat) :=
  if f.inc ≠ 0 then
    match b.resolveCtr job f.sh f.ctr.toNat with
    | none => .error excCounter
    | some n => .ok (some n)
  else if f.sh ≠ 0 ∨ f.ctr ≠ 0 then .error excIllegal
  else .ok none

/-- The result word before any work, above its status: a TAKE that ends before it reaches a frame reports FRAME_NO
0xFFFF_FFFF (Table 9.10); an OPEN or CLOSE reports NUM (R279); a DECODE and a LOGRD have met no damage yet (Tables 10.10
and 11.7); an ENCODE has spent no budget and coded no minimal CTU (Table 10.9). -/
def TOp.result0 (op : TOp) (pb : BitVec 512) : BitVec 56 :=
  match op with
  | .takeFrame | .takeRegion | .logrd => 0xFFFFFFFF000000
  | .codec =>
    if cdCmd pb = 1 ∨ cdCmd pb = 2 then BitVec.ofNat 56 (cdNum pb * 2 ^ 8)
    else if cdCmd pb = 3 then 0xFFFFFFFF000000
    else if cdCmd pb = 4 then 0xFFFFF000
    else 0
  | _ => 0

/-- The unit of an instruction as its thread waits on it: a command for Unit 16 waits on any skidder. -/
def waitUnit (op : TOp) (f : TForm) (u : CmdUnit) : CmdUnit :=
  match op with
  | .skid | .scatter | .gather => if f.op = 16 then .skidder 16 else u
  | _ => u

/-- A thread that waits on `w` would take a place of the unit `u`. -/
def takesPlace (u w : CmdUnit) : Bool := u == w || match u with
  | .skidder _ => w == .skidder 16
  | _ => false

/-- A number for each unit that holds commands. -/
def unitKey : CmdUnit → Nat
  | .engine e => e
  | .skidder k => 0x100 + k
  | .gather => 0x200
  | .take s => 0x300 + s
  | .session n => 0x400 + n
  | .records r => 0x500 + r
  | .openAny => 0x600
  | .logStore => 0x601
  | .landing s => 0x700 + s

/-- Threads that wait in issue for a place of a unit, whose own limit leaves room (R159). -/
def Block.placeWaiters (b : Block) (u : CmdUnit) : List Nat :=
  (b.fk.threads.filter fun e => e.2.hold == .unit && b.inflight e.2.job e.2.jidx < 32 &&
    e.2.issue.any fun x => takesPlace u x.unit).map (·.1)

/-- How far thread `th` stands behind the thread that took a place of the unit last, in the round (R159). -/
def Block.placeRank (b : Block) (u : CmdUnit) (th : Nat) : Nat :=
  (th + 4096 - (SMap.get zeroNat b.fk.places (unitKey u) + 1) % 4096) % 4096

/-- A place of the unit is free for thread `th`, and no thread that waits on the unit comes before it in the round (R159).
(DEDUCED, log entry 25) -/
def Block.unitRoom (b : Block) (u : CmdUnit) (th : Nat) : Bool :=
  b.queuedIn u < unitPlaces u && (b.placeWaiters u).all fun x => b.placeRank u th ≤ b.placeRank u x

/-- Send a command to its unit (R152). -/
def Block.send (b : Block) (c : Cmd) : Block := (b.setCmd b.nextId { c with order := b.nextId }).bumpId

/-- The counter and the parameter block of an instruction: as it read them where it waits in issue, else read now (R152). -/
def Block.issueReads (b : Block) (p : TSpec) (job : Job) (t : Thread) (th : Nat) (f : TForm) :
    Except Nat (Option Nat × BitVec 512) :=
  match t.hold, t.issue with
  | .unit, some x => .ok (x.sig, x.pb)
  | _, _ =>
    match b.issueCtr job f with
    | .error c => .error c
    | .ok sig => match b.readPb p job t th f with
      | .error c => .error c
      | .ok pb => .ok (sig, pb)

/-- A tensor-issue instruction (R152); `f` has the row's OP where OP names no unit. (DEDUCED, log entry 25) -/
def issueT (p : TSpec) (th : Nat) (f : TForm) (b : Block) : Block :=
  b.issueInstr th (wordT p.major f) 8 true fun job t =>
    if p.illegal f then .raise excIllegal
    else match t.named p.a f.ta, t.named p.b f.tb, t.named p.c f.tc with
      | some ta, some tb, some tc =>
        match b.issueReads p job t th f with
        | .error c => .raise c
        | .ok (sig, pb) =>
          let u := b.unitOf p.op f th pb
          if b.inflight t.job t.jidx < 32 && b.unitRoom u th then
            .done ({ t with hold := .none, issue := none }.adv 8) fun b =>
              (b.setFk fun k => { k with places := SMap.put k.places (unitKey u) th }).send
                { unit := u, op := p.op, form := f, job := t.job, thread := th, jidx := t.jidx, ta := ta, tb := tb,
                  tc := tc, pb := pb, pbAddr := t.sc f.sx, x := t.sc f.sx, y := t.sc f.sy, epoch := t.ep, sig := sig,
                  phase := .queued, cursor := 0, staging := 0, stage := [], fail := none, result := p.op.result0 pb, scratch := [],
                  owners := [], lines := [], need := none, active := false, order := 0 }
          else .stall { unit := waitUnit p.op f u, pb := pb, sig := sig }
      | _, _, _ => .raise excHandle

/-- A row of Table 5.12: the instruction, with the row's OP, or the work of one of its commands. -/
def tensorRow (p : TSpec) (op : Option (BitVec 5)) (work : Nat → Block → Block) (t : TStep) (b : Block) :
    Block :=
  match t with
  | .issue th f => issueT p th { f with op := op.getD f.op } b
  | .work id => b.whenLive (work id)

/-- The units that a command needs (Table 15.3): its unit, and the stand of its thread, whose scratchpad it reaches. -/
def Cmd.workUnits (c : Cmd) : List Nat :=
  unitId 0x1 (standOf c.thread) :: match c.unit with
    | .engine e => [unitId 0x2 e]
    | .skidder k => [unitId 0x6 k]
    | .gather => [unitId 0x6 16]
    | .take s => [unitId 0x5 (s / 4)]
    | .session _ => [unitId 0x5 33]
    | .records _ => [unitId 0x5 34]
    | .openAny => [unitId 0x5 (33 + cdUnit c.pb)]
    | .logStore => [unitId 0x5 48]
    | .landing _ => [unitId 0x6 20, unitId 0x6 21, unitId 0x6 22, unitId 0x6 23]

/-- The command waits for the end of a reset (R414, R415). (DEDUCED, log entry 67) -/
def Block.cmdWaits (b : Block) (c : Cmd) : Bool := c.workUnits.any b.underReset

/-- The work of an accepted command that satisfies `p`. -/
def Block.workOn (b : Block) (id : Nat) (p : Cmd → Bool) (f : Cmd → Block → Block) : Block :=
  match b.findCmd id with
  | some c => b.guard (c.phase == .accepted && !b.cmdWaits c && p c) (f c)
  | none => b

/-- No earlier command of the unit is queued or at work (R155). -/
def Block.firstOf (b : Block) (id : Nat) (c : Cmd) : Bool :=
  b.fk.cmds.all fun e => e.2.unit ≠ c.unit || id ≤ e.1 || (match e.2.phase with
    | .finished _ => true
    | _ => false)

/-- A command ends with a status (R153 follows in COMMAND_END). -/
def Block.finish (b : Block) (id st : Nat) : Block := b.modCmd id fun c => { c with phase := .finished st, active := false }

/-- The result word of a command: its status in the low byte (R153). -/
def Cmd.resultWord (c : Cmd) (st : Nat) : Nat := st % 256 + 256 * c.result.toNat

/-- The summary of a thread after a command's status (R134, R153). -/
def Tst.record (x : Tst) (st : Nat) : Tst :=
  if st < 0x10 then x
  else
    { first := if x.count = 0 then BitVec.ofNat 8 st else x.first
      last := BitVec.ofNat 8 st
      count := if x.count = BitVec.allOnes 32 then x.count else x.count + 1 }

/-- The counts of a job that a SLOT command moves (Table 14.5). -/
def Job.slotEnd (job : Job) (op : TOp) (st : Nat) : Job :=
  match op with
  | .slotPlace =>
    if st = stStraggler then { job with voided := job.voided + 1 }
    else if st < 0x10 then { job with placed := job.placed + 1 } else job
  | .slotVoid => if st = stCorrupt ∨ st = stStale ∨ st = stOverflow then { job with voided := job.voided + 1 } else job
  | _ => job

/-- The work of an engine (cause ENG_MALFORMED, Table 14.11). -/
def TOp.onEngine : TOp → Bool
  | .mma | .mmaStore | .win | .rsmp | .warp => true
  | _ => false

/-- The queue of a command's job. -/
def Block.sqOf (b : Block) (c : Cmd) : Option Nat := (b.findJob c.job).map (·.sq)

/-- The tally of an ended SLOT command (Table 16.1, R355). -/
def Block.tallySlot (b : Block) (c : Cmd) (st : Nat) : Block :=
  match c.op with
  | .slotPlace =>
    if st = stEpochStale then b.tally 0x25 0 (b.sqOf c) 1
    else if st < 0x10 ∧ st ≠ stStraggler then b.tally 0x23 0 (b.sqOf c) 1 else b
  | .slotVoid =>
    if st = stEpochStale then b.tally 0x25 0 (b.sqOf c) 1
    else if st = stCorrupt ∨ st = stStale ∨ st = stOverflow then b.tally 0x24 0 (b.sqOf c) 1 else b
  | _ => b

/-- The result word's write: not made where R142 does not permit it (R153). -/
def Block.writeResult (b : Block) (c : Cmd) (st : Nat) : Block :=
  if c.op.param then
    match b.cmdLocal c (c.pbAddr.toNat + 56) 8 with
    | some l => b.locWrite l 0 (leBytes 8 (c.resultWord st))
    | none => b
  else b

/-- The signal of a command (R153). (DEDUCED, log entry 26) -/
def Block.signalEnd (b : Block) (c : Cmd) : Block :=
  match c.sig with
  | some n => b.signal n c.form.inc.toNat c.epoch ((b.sqOf c).getD 0)
  | none => b

/-- A command ends (R153, R190). (DEDUCED, log entry 29) -/
def Block.endCmd (b : Block) (id : Nat) (c : Cmd) (st : Nat) : Block :=
  let b := ((b.writeResult c st).progress c false true st c.cursor).tallySlot c st
  let b := b.modJob c.job fun job =>
    { (job.slotEnd c.op st) with tst := SMap.set tstZero job.tst c.jidx ((job.tstOf c.jidx).record st) }
  let b := if c.op.onEngine && st == stMalformed then b.causeShaping 1 else b
  (b.signalEnd c).setFk fun k => { k with cmds := SMap.erase k.cmds id }

/-- COMMAND_END (R153): a command whose work is over ends once its writes are visible. -/
def execCommandEnd (id : Nat) (s : State) : Host.Outcome State Fault Refusal :=
  s.upd fun b => b.whenLive fun b =>
    match b.findCmd id with
    | none => b
    | some c => match c.phase with
      | .finished st => b.guard (b.cmdAcked id) fun b => b.endCmd id c st
      | _ => b

end Sys2Proof.Machine
end

