-- ==== Sys2Proof/Machine/Movement.lean ====
section
/-! DEFINITION. SKID, GATHER and SCATTER byte by byte in traversal order (6.5 to 6.10, R327, R328, R333): sources, staging, owner tables, suspension and fill. -/

namespace Sys2Proof.Machine

/-- Why a byte of a transfer cannot be moved now: a translation is missing, a line of memory has not been read yet, no
credit is left for one more line write (R31, R329), or the command ends. -/
inductive Halt where
  | miss (va : Nat) (write : Bool)
  | line (l : Nat)
  | full
  | stop (status : Nat)
  deriving DecidableEq, Repr

/-- The transfer as it stands: the block, the command with its serial number, and the masked bytes so far. -/
structure Mv where
  b : Block
  id : Nat
  c : Cmd
  masked : Nat

/-- A transfer from where its command stands. -/
def Mv.start (b : Block) (id : Nat) (c : Cmd) : Mv := { b := b, id := id, c := c, masked := 0 }

/-- The agent of a command's memory accesses: its skidder, or the gather engine (R327). -/
def Cmd.agent (c : Cmd) (id : Nat) : Agent :=
  match c.unit with
  | .skidder k => .skidder k id
  | _ => .gather id

/-- What the command has of a line: nothing, a read that failed for good, or its data. -/
def Cmd.lineOf (c : Cmd) (l : Nat) : Option (Option (BitVec 512)) := (c.lines.find? fun e => e.1 == l).map (·.2)

/-- The command's own write shows in the lines that it has read. -/
def Cmd.wrote (c : Cmd) (pa : Nat) (v : Byte) : Cmd :=
  { c with lines := c.lines.map fun e =>
      if e.1 = pa / 64 then (e.1, e.2.map fun x => setBits x (8 * (pa % 64)) 8 v.toNat) else e }

/-- The operand that the command writes. -/
def Cmd.dest (c : Cmd) : Desc :=
  match c.op with
  | .skid | .codec => c.tb
  | .mmaStore | .takeFrame | .takeRegion | .logrd => c.ta
  | _ => c.tc

/-- The operands that the command reads. -/
def Cmd.sources (c : Cmd) : List Desc :=
  match c.op with
  | .skid => [c.ta]
  | _ => [c.ta, c.tb]

/-! Overlap and staging (R184 to R186). -/

/-- The total overlap of the written operand with the operands read. -/
def Cmd.overlap (c : Cmd) : Nat := (c.sources.map fun d => (overlapOf c.dest d).2).sum

/-- An identity copy (R185). -/
def Cmd.identityCopy (c : Cmd) : Bool := c.op == .skid && sameLayout c.ta c.tb

/-- The command needs the staging area (R186). -/
def Cmd.staged (c : Cmd) : Bool := !c.identityCopy && c.overlap ≠ 0

/-- Staging units of the command. -/
def Cmd.stageUnits (c : Cmd) : Nat := cdiv c.overlap (2 ^ 16)

/-- The addresses of the source bytes that lie in the overlap, in storage order. (DEDUCED, log entry 27) -/
def Cmd.stageList (c : Cmd) : List Nat :=
  (c.sources.flatMap fun d =>
    let o := overlapOf c.dest d
    if o.2 = 0 then []
    else ((travData d).map (TByte.addr d)).filter fun (a : Nat) => o.1 ≤ (a : Int) && (a : Int) < o.1 + (o.2 : Int)).eraseDups

/-- Staging units in use (STAGE_USED, Table 12.4). -/
def Block.stageUsed (b : Block) : Nat := (b.fk.cmds.map fun e => e.2.staging).sum

/-- The staged copy of the byte at an address of the destination's space. -/
def Cmd.stagedByte (c : Cmd) (d : Desc) (a : Nat) : Option Byte :=
  if c.staged && dSpace d == dSpace c.dest then ((c.scratch.zip c.stage).find? fun e => e.1 == a).map (·.2) else none

/-- Read one byte of an operand from its space (Table 4.7, R142, R175); a byte of memory comes out of a line that has been
read for the command. -/
def Block.spaceByte (b : Block) (c : Cmd) (d : Desc) (a : Nat) : Except Halt Byte :=
  if dSpace d = 1 then
    match b.cmdLocal c a 1 with
    | some l => .ok (b.locGet l 0)
    | none => .error (.stop stProtect)
  else if a < 2 ^ 48 then
    match b.xlate (dCtx d) a false with
    | some pa => match c.lineOf (pa / 64) with
      | some (some x) => .ok (BitVec.ofNat 8 (bits x (8 * (pa % 64)) 8))
      | some none => .error (.stop stLasting)
      | none => .error (.line (pa / 64))
    | none => .error (.miss a false)
  else .error (.stop stProtect)

/-- Read one byte of an operand, from the staged snapshot where it holds the byte. -/
def Block.readByte (b : Block) (c : Cmd) (d : Desc) (a : Nat) : Except Halt Byte :=
  match c.stagedByte d a with
  | some v => .ok v
  | none => b.spaceByte c d a

/-- Write one byte of memory: it joins a line write that the command's agent owes, while the agent has a credit for it. -/
def Mv.owePa (m : Mv) (pa : Nat) (v : Byte) : Except Halt Mv :=
  let a := m.c.agent m.id
  if m.b.writeRoom a (pa / 64) then .ok { m with b := m.b.owe a pa v, c := m.c.wrote pa v } else .error .full

/-- Write one byte of the destination. -/
def Mv.writeByte (m : Mv) (d : Desc) (a : Nat) (v : Byte) : Except Halt Mv :=
  if dSpace d = 1 then
    match m.b.cmdLocal m.c a 1 with
    | some l => .ok { m with b := m.b.locWrite l 0 [v] }
    | none => .error (.stop stProtect)
  else if a < 2 ^ 48 then
    match m.b.xlate (dCtx d) a true with
    | some pa => m.owePa pa v
    | none => .error (.miss a true)
  else .error (.stop stProtect)

/-- Bytes at rising addresses of an operand. -/
def Block.readBytesOf (b : Block) (c : Cmd) (d : Desc) (a : Nat) : Nat → Except Halt (List Byte)
  | 0 => .ok []
  | n + 1 => do
    let v ← b.readByte c d a
    let vs ← b.readBytesOf c d (a + 1) n
    return v :: vs

/-- TB[p] of a GATHER or SCATTER (R178). -/
def Block.readIndex (b : Block) (c : Cmd) (p : Nat) : Except Halt Nat := do
  let xs ← b.readBytesOf c c.tb (elemAddr c.tb [p, 0, 0, 0, 0, 0]) 4
  return leNat xs

/-! Owner tables (R181 to R183). -/

/-- Whether a write to the supertile of a storage index lands; the entry is read once. -/
def Mv.owned (m : Mv) (d : Desc) (s : List Nat) : Except Halt (Mv × Bool) :=
  if dOwner d = 0 then .ok (m, true)
  else
    let a := ownerAddr d s
    match SMap.find m.c.owners a with
    | some e => .ok (m, e == dOwnId d)
    | none => do
      let xs ← m.b.readBytesOf m.c d a 2
      return ({ m with c := { m.c with owners := SMap.put m.c.owners a (leNat xs) } }, leNat xs == dOwnId d)

/-- Write one byte of the destination's element or block at a storage index, unless its owner masks it (R182).
(DEDUCED, log entry 27) -/
def Mv.put (m : Mv) (s : List Nat) (a v : Nat) : Except Halt Mv := do
  let (m, lands) ← m.owned m.c.dest s
  if lands then m.writeByte m.c.dest a (BitVec.ofNat 8 v)
  else return { m with masked := m.masked + 1 }

/-! Values. -/

/-- The view dimension that maps to storage dimension 0. -/
def blockDim (d : Desc) : Nat := ((List.range 6).find? fun k => dPi d k = 0).getD 0

/-- A view index moved by `e` elements along its block. -/
def alongBlock (d : Desc) (v : List Nat) (e : Nat) : List Nat := v.set (blockDim d) (ix v (blockDim d) + e)

/-- The element of an MX block that bit `i` of data byte `j` belongs to. -/
def mxElemOf (t j i : Nat) : Nat := (8 * j + i) / typeBits t

/-- A byte from its 8 bits. -/
def byteOf (f : Nat → Nat) : Nat := (List.range 8).foldl (fun acc i => acc + f i % 2 * 2 ^ i) 0

/-- Bit `i` of FILL's elements in data byte `j` of an MX block. -/
def fillBit (d : Desc) (j i : Nat) : Nat := fillElem d / 2 ^ ((8 * j + i) % typeBits (dType d))

/-- The byte that a source gives for a traversal byte whose element, or block, is the source's view index `u`: `sb` is
the byte read at the same place, and elements outside the source's view take its FILL (R174). `pad e` says that
element `e` of the destination's block is a pad element (R172). (DEDUCED, log entry 28) -/
def takeByte (src dst : Desc) (part : Nat) (u : List Nat) (pad : Nat → Bool) (sb : Nat) : Nat :=
  let t := dType dst
  if !isScaled t then (if inView src u then sb else fillElem src / 256 ^ part % 256)
  else if part = 0 then (if inView src u then sb else fillScale src)
  else byteOf fun i =>
    let e := mxElemOf t (part - 1) i
    if pad e then fillBit dst (part - 1) i
    else if inView src (alongBlock src u e) then sb / 2 ^ i
    else fillBit src (part - 1) i

/-- Some element of a traversal byte lies in the source's view, so that the byte is read (R174). -/
def readsSource (src : Desc) (part : Nat) (u : List Nat) : Bool :=
  if isScaled (dType src) && part ≠ 0 then
    (mxElems (dType src) (part - 1)).any fun e => inView src (alongBlock src u e)
  else inView src u

/-- The byte of the source at view index `u`. -/
def Block.sourceByte (b : Block) (c : Cmd) (src : Desc) (part : Nat) (u : List Nat) : Except Halt Nat :=
  if readsSource src part u then do
    let v ← b.readByte c src (TByte.addr src { s := storeIx src u, part := part })
    return v.toNat
  else .ok 0

/-- Element `e` of the destination's block at storage index `s` is a pad element (R172). -/
def padElem (d : Desc) (s : List Nat) (e : Nat) : Bool := dSize d 0 ≤ ix s 0 + e

/-- DIM of a GATHER or SCATTER. -/
def Cmd.dim (c : Cmd) : Nat := c.form.md.toNat % 8

/-- The source view index of a destination view index: the same for SKID, indexed along DIM for GATHER, and past
every extent of TA where TB has no entry, so that the element takes TA's FILL (R177, R178). (DEDUCED, log entry 28) -/
def Block.sourceView (b : Block) (c : Cmd) (v : List Nat) : Except Halt (List Nat) :=
  if c.op = .gather then
    let p := ix v c.dim
    if dSize c.tb 0 ≤ p then .ok (v.set c.dim (2 ^ 32))
    else do
      let i ← b.readIndex c p
      return v.set c.dim i
  else .ok v

/-- One destination byte of SKID or GATHER. (DEDUCED, log entry 27) -/
def Mv.copyByte (m : Mv) (x : TByte) : Except Halt Mv := do
  let d := m.c.dest
  let a := x.addr d
  if !inStore d x.s then m.put x.s a (fillByte d x)
  else
    let u ← m.b.sourceView m.c (viewIx d x.s)
    let sb ← m.b.sourceByte m.c m.c.ta x.part u
    m.put x.s a (takeByte m.c.ta d x.part u (padElem d x.s) sb)

/-- Write bytes of the destination, all at one element's or block's place or in its tile. -/
def Mv.putAll (m : Mv) : List (TByte × Nat) → Except Halt Mv
  | [] => .ok m
  | (x, v) :: xs => do
    let m ← m.put x.s (x.addr m.c.dest) v
    m.putAll xs

/-- The pad bytes that a write of the tile row of `s` brings with it in a blocked destination (R172): the row's pad
elements, and after the last row below SIZE[1] the tile's pad rows. (DEDUCED, log entry 27) (DEDUCED, log entry 28) -/
def padBytes (d : Desc) (s : List Nat) : List (TByte × Nat) :=
  if dShape d = 0 then []
  else
    let r := ix s 1
    let tile := tileTBytes (dType d) (s.drop 2) (ix s 0 / 32 * 32) (r / 8 * 8)
    (tile.filter fun y => !y.inBounds d && (ix y.s 1 == r || (r + 1 == dSize d 1 && r < ix y.s 1))).map fun y =>
      (y, fillByte d y)

/-- The value of a SCATTER's target byte: TA's bits, FILL in pad elements, and the old bits of elements of TC that the
source block does not hold. (DEDUCED, log entry 28) -/
def scatterByte (src dst : Desc) (part : Nat) (v u : List Nat) (sb old : Nat) : Nat :=
  if !isScaled (dType dst) || part = 0 then sb
  else byteOf fun i =>
    let e := mxElemOf (dType dst) (part - 1) i
    if padElem dst u e then fillBit dst (part - 1) i
    else if inStore src (alongBlock src v e) then sb / 2 ^ i
    else old / 2 ^ i

/-- A target byte of a SCATTER keeps bits of elements that no source element maps to: TC's block reaches past TA's. -/
def keepsOld (src dst : Desc) (part : Nat) (v u : List Nat) : Bool :=
  isScaled (dType dst) && part ≠ 0 &&
    (mxElems (dType dst) (part - 1)).any fun e => !padElem dst u e && !inStore src (alongBlock src v e)

/-- The bytes of TC that the source byte of a SCATTER at `x` writes, with the target's view index (R179).
(DEDUCED, log entry 28) -/
def Mv.scatterByte (m : Mv) (x : TByte) : Except Halt Mv := do
  let p := ix x.s m.c.dim
  if dSize m.c.tb 0 ≤ p then return m
  else
    let i ← m.b.readIndex m.c p
    let u := x.s.set m.c.dim i
    let tc := m.c.tc
    if !inStore tc u then return m
    else
      let y : TByte := { s := u, part := x.part }
      let sb ← m.b.readByte m.c m.c.ta (x.addr m.c.ta)
      let (m, lands) ← m.owned tc u
      let old ← if lands && keepsOld m.c.ta tc x.part x.s u then m.b.spaceByte m.c tc (y.addr tc) else .ok 0
      let v := Sys2Proof.Machine.scatterByte m.c.ta tc x.part x.s u sb.toNat old.toNat
      m.putAll ((y, v) :: padBytes tc u)

/-- One byte of the traversal. -/
def Mv.byte (m : Mv) (x : TByte) : Except Halt Mv := if m.c.op = .scatter then m.scatterByte x else m.copyByte x

/-- Bytes of the destination by rising address. -/
def byAddress (d : Desc) (xs : List TByte) : List TByte := xs.mergeSort fun x y => x.addr d ≤ y.addr d

/-- The traversal of a command (Table 6.6): an overlapping identity copy goes by destination address, descending where
TB.BASE is above TA.BASE (R185). (DEDUCED, log entry 27) -/
def Cmd.traversal (c : Cmd) : List TByte :=
  if c.op = .scatter then travData c.ta
  else if c.identityCopy && c.overlap ≠ 0 then
    (if dBase c.ta < dBase c.tb then (byAddress c.tb (travAll c.tb)).reverse else byAddress c.tb (travAll c.tb))
  else travAll c.dest

/-- The bytes of the whole transfer (TOTAL, Table 4.8). (DEDUCED, log entry 29) -/
def Cmd.total (c : Cmd) : Nat := if c.op = .scatter then (travData c.ta).length else travLen c.dest

/-- Do `f` for the bytes of a list, with the cursor, until one halts. Of two elements on one byte the later in traversal
order is written last, and a byte at or after the cursor of a suspension is not written.
(DEDUCED, log entry 27) (DESIGN CHOICE, log entry 77) -/
def Mv.run (f : Mv → TByte → Except Halt Mv) (m : Mv) : List TByte → Mv × Option Halt
  | [] => (m, none)
  | x :: xs => match f m x with
    | .error h => (m, some h)
    | .ok m' => ({ m' with c := { m'.c with cursor := m'.c.cursor + 1 } } : Mv).run f xs

/-- Copy overlapping source bytes into the staging area until one halts (R186). -/
def Mv.fillStage (m : Mv) : List Nat → Mv × Option Halt
  | [] => (m, none)
  | a :: as => match m.b.spaceByte m.c m.c.dest a with
    | .error h => (m, some h)
    | .ok v => ({ m with c := { m.c with stage := m.c.stage ++ [v], scratch := m.c.scratch ++ [a] } } : Mv).fillStage as

/-! Fill (R192). -/

/-- `n` bytes of an operand, all in one line, as a number: none where they cannot be read without a fault. -/
def Block.peek (b : Block) (c : Cmd) (d : Desc) (a n : Nat) : Except Halt (Option Nat) :=
  if dSpace d = 1 then .ok ((b.cmdLocal c a n).map fun l => b.locBits l n)
  else if a < 2 ^ 48 then
    match b.xlateNow (dCtx d) a false with
    | some pa => match c.lineOf (pa / 64) with
      | some x => .ok (x.map fun x => bits x (8 * (pa % 64)) (8 * n))
      | none => .error (.line (pa / 64))
    | none => .ok none
  else .ok none

/-- Whether a fill write to the supertile of a storage index lands; none where the entry cannot be read. -/
def Mv.ownsNow (m : Mv) (s : List Nat) : Except Halt (Option Bool) :=
  let d := m.c.dest
  if dOwner d = 0 then .ok (some true)
  else match SMap.find m.c.owners (ownerAddr d s) with
    | some e => .ok (some (e == dOwnId d))
    | none => do
      let e ← m.b.peek m.c d (ownerAddr d s) 2
      return e.map (· == dOwnId d)

/-- Write one byte of the destination where it can be made without suspending (R182, R192). -/
def Mv.fillWrite (m : Mv) (x : TByte) (v : Nat) : Except Halt Mv := do
  let d := m.c.dest
  let a := x.addr d
  match ← m.ownsNow x.s with
  | none => return m
  | some false => return { m with masked := m.masked + 1 }
  | some true =>
    if dSpace d = 1 then
      match m.b.cmdLocal m.c a 1 with
      | some l => return { m with b := m.b.locWrite l 0 [BitVec.ofNat 8 v] }
      | none => return m
    else if a < 2 ^ 48 then
      match m.b.xlateNow (dCtx d) a true with
      | some pa => m.owePa pa (BitVec.ofNat 8 v)
      | none => return m
    else return m

/-- TB[p] where its bytes can be read without a fault. -/
def Block.indexNow (b : Block) (c : Cmd) (p : Nat) : Except Halt (Option Nat) :=
  let a := elemAddr c.tb [p, 0, 0, 0, 0, 0]
  match c.stagedByte c.tb a with
  | some _ => match b.readIndex c p with
    | .ok i => .ok (some i)
    | .error (.line l) => .error (.line l)
    | .error _ => .ok none
  | none => b.peek c c.tb a 4

/-- Fill bytes, each at its place. -/
def Mv.fillAll (m : Mv) : List (TByte × Nat) → Except Halt Mv
  | [] => .ok m
  | (x, v) :: xs => do
    let m ← m.fillWrite x v
    m.fillAll xs

/-- The fill of the targets of a SCATTER's source byte: TC's FILL in the elements that source elements map to.
(DEDUCED, log entry 28) -/
def Mv.fillTarget (m : Mv) (x : TByte) (u : List Nat) : Except Halt Mv := do
  let tc := m.c.tc
  let y : TByte := { s := u, part := x.part }
  if keepsOld m.c.ta tc x.part x.s u then
    match ← m.b.peek m.c tc (y.addr tc) 1 with
    | some old => m.fillAll ((y, Sys2Proof.Machine.scatterByte m.c.ta tc x.part x.s u (fillByte tc y) old) :: padBytes tc u)
    | none => m.fillAll (padBytes tc u)
  else m.fillAll ((y, fillByte tc y) :: padBytes tc u)

/-- The fill of one traversal byte (R192). -/
def Mv.fillOne (m : Mv) (x : TByte) : Except Halt Mv :=
  if m.c.op = .scatter then do
    let p := ix x.s m.c.dim
    if dSize m.c.tb 0 ≤ p then return m
    else match ← m.b.indexNow m.c p with
      | none => return m
      | some i =>
        let u := x.s.set m.c.dim i
        if inStore m.c.tc u then m.fillTarget x u else return m
  else m.fillWrite x (fillByte m.c.dest x)

/-! The work of a command. -/

/-- The tally index of a movement command's unit (Table 16.1). -/
def Cmd.moveUnit (c : Cmd) : Nat :=
  match c.unit with
  | .skidder k => k
  | _ => 16

/-- The block after a transfer, its masked bytes counted (R182, event 0x0A). -/
def Mv.tallied (m : Mv) : Block := if 0 < m.masked then m.b.tally 0x0A 0x3F (m.b.sqOf m.c) m.masked else m.b

/-- Store a command after work that moved its cursor from `from`, and count the bytes (events 0x08 and 0x0A). -/
def Mv.store (m : Mv) (id from_ : Nat) : Block :=
  let b := m.tallied.setCmd id m.c
  if from_ < m.c.cursor then b.tally 0x08 m.c.moveUnit (b.sqOf m.c) (m.c.cursor - from_) else b

/-- What the command waits for (Table 4.8). -/
def Block.cmdNeed (b : Block) (c : Cmd) (va : Nat) (write : Bool) : Need :=
  match b.findJob c.job with
  | some j =>
    { va := va, write := write, ctx := j.ctx, agent := if c.unit = .gather then 1 else 0,
      unit := if c.unit = .gather then 0 else c.moveUnit, sq := j.sq, tag := entTag j.entry, cursor := c.cursor,
      total := c.total }
  | none => { va := va, write := write, ctx := 0, agent := 0, unit := 0, sq := 0x3F, tag := 0xFFFF, cursor := c.cursor,
              total := c.total }

/-- After work that halted: the missing translation, the wait for a line or a credit, or the end of the command. -/
def Mv.halt (m : Mv) (id from_ : Nat) (h : Halt) : Block :=
  match h with
  | .miss va w => ({ m with c := { m.c with need := some (m.b.cmdNeed m.c va w) } } : Mv).store id from_
  | .line _ | .full => m.store id from_
  | .stop st => (m.store id from_).finish id st

/-- The rest of a command that failed takes fill, and the command ends with its status (R63, R192). -/
def Block.moveFill (b : Block) (id : Nat) (c : Cmd) (st : Nat) : Block :=
  let r := (Mv.start b id c).run Mv.fillOne (c.traversal.drop c.cursor)
  match r.2 with
  | some h => r.1.halt id c.cursor h
  | none => (r.1.store id c.cursor).finish id st

/-- The overlapping source bytes that are still to be copied into the staging area. -/
def Cmd.stageLeft (c : Cmd) : List Nat := if c.staged then c.stageList.drop c.stage.length else []

/-- A command moves its bytes: staging first, then the traversal from its cursor (R186, R188). -/
def Block.moveData (b : Block) (id : Nat) (c : Cmd) : Block :=
  let st := (Mv.start b id c).fillStage c.stageLeft
  match st.2 with
  | some h => st.1.halt id c.cursor h
  | none =>
    let r := st.1.run Mv.byte (c.traversal.drop c.cursor)
    match r.2 with
    | some h => r.1.halt id c.cursor h
    | none => (r.1.store id c.cursor).finish id stDone

/-- The command has what it needs of the staging area: it claims its units while they are free (R186). -/
def Block.claimStage (b : Block) (c : Cmd) : Option Cmd :=
  if !c.staged || c.staging ≠ 0 then some c
  else if b.stageUsed + c.stageUnits ≤ 32 then some { c with staging := c.stageUnits }
  else none

/-- Commands that a unit would work before this one: active ones first, then by order (R327, R328).
(DEDUCED, log entry 30) -/
def Block.aheadOf (b : Block) (id : Nat) (c : Cmd) : Nat :=
  SMap.count b.fk.cmds fun k e => e.unit == c.unit && e.phase == .accepted && k ≠ id &&
    ((e.active && !c.active) || (e.active == c.active && (e.order < c.order || (e.order == c.order && k < id))))

/-! The lines that a command reads (R328, R329). -/

/-- The lines that a list of bytes still lacks, in the order in which it needs them, and whether the end of the list is
reached: a line whose address depends on one that is lacking, and what lies behind a missing translation, are not known
yet. -/
def Mv.lacks (f : Mv → TByte → Except Halt Mv) (m : Mv) : List TByte → List Nat × Bool
  | [] => ([], true)
  | x :: xs => match f m x with
    | .ok m' => m'.lacks f xs
    | .error (.line l) => let r := m.lacks f xs; (l :: r.1, r.2)
    | .error .full => m.lacks f xs
    | .error _ => ([], false)

/-- The lines that the copy into the staging area still lacks. -/
def Mv.stageLacks (m : Mv) : List Nat → List Nat × Bool
  | [] => ([], true)
  | a :: as => match m.b.spaceByte m.c m.c.dest a with
    | .ok _ => m.stageLacks as
    | .error (.line l) => let r := m.stageLacks as; (l :: r.1, r.2)
    | .error _ => ([], false)

/-- The lines that an accepted command lacks, in order, without those asked for, and whether they are its last. -/
def Block.lineWants (b : Block) (id : Nat) (c : Cmd) : List Nat × Bool :=
  if c.phase ≠ .accepted ∨ c.need.isSome ∨ (c.fail.isNone && c.staged && c.staging = 0) then ([], false)
  else
    let m := Mv.start b id c
    let r := match c.fail with
      | some _ => m.lacks Mv.fillOne (c.traversal.drop c.cursor)
      | none =>
        if c.stageLeft = [] then m.lacks Mv.byte (c.traversal.drop c.cursor)
        else ((m.stageLacks c.stageLeft).1, false)
    (r.1.eraseDups.filter fun l => !b.lineAsked (Agent.ofCmd id) l, r.2)

/-- The command ahead of the next one of a skidder has issued its last read (R328). -/
def Block.aheadRead (b : Block) (id : Nat) (c : Cmd) : Bool :=
  b.fk.cmds.all fun e => e.2.unit ≠ c.unit || e.1 == id || e.2.phase ≠ .accepted || b.aheadOf e.1 e.2 ≠ 0 ||
    b.lineWants e.1 e.2 == ([], true)

/-- Lines in the data buffer of a skidder, or on their way to it, but for those that command `id` has (R328). -/
def Block.bufferUsed (b : Block) (k id : Nat) : Nat :=
  ((b.fk.cmds.filter fun e => e.2.unit == .skidder k && e.1 ≠ id).map fun e => e.2.lines.length).sum +
    b.tagsOf false (Agent.ofSkidder k) +
    (b.fk.retries.filter fun x => !x.req.write && x.req.agent.ofSkidder k).length

/-- The line that a command of skidder k reads next: the current command, or the next one that reads ahead, while the
buffer of 256 lines has room (R29, R328). (DEDUCED, log entry 30) -/
def Block.nextLine (b : Block) (k id : Nat) (c : Cmd) : Option Nat :=
  if b.bufferUsed k id < 256 && (b.aheadOf id c == 0 || (b.aheadOf id c == 1 && b.aheadRead id c)) then
    (b.lineWants id c).1.head?
  else none

/-- A line that has been read joins what its command has; of a skidder's buffer that is full the command's oldest line
goes (R328). (DEDUCED, log entry 30) -/
def Block.lineRead (b : Block) (id line : Nat) (x : Option (BitVec 512)) : Block :=
  match b.findCmd id with
  | none => b
  | some c =>
    let ls := c.lines ++ [(line, x)]
    let ls := match c.unit with
      | .skidder k => if 256 < b.bufferUsed k id + ls.length then ls.drop 1 else ls
      | _ => ls
    b.setCmd id { c with lines := ls }

/-- The next command of a skidder reads ahead once the current one has issued its last read: a missing translation of its
next byte's source is found (R328). (DEDUCED, log entry 30) -/
def Block.readAhead (b : Block) (id : Nat) (c : Cmd) : Block :=
  if b.aheadRead id c then
    match (c.traversal.drop c.cursor).head? with
    | none => b
    | some x => match (Mv.start b id c).byte x with
      | .error (.miss va false) => b.setCmd id { c with active := true, need := some (b.cmdNeed c va false) }
      | _ => b.setCmd id { c with active := true }
  else b

/-- The work of a SKID, GATHER or SCATTER: the current command of its skidder, or any of the gather engine's. -/
def Block.moveWork (b : Block) (id : Nat) (c : Cmd) : Block :=
  match c.fail with
  | some st => b.moveFill id c st
  | none =>
    if c.need.isSome then b
    else match b.claimStage c with
      | none => b
      | some c =>
        if c.unit = .gather ∨ b.aheadOf id c = 0 then b.moveData id { c with active := true }
        else if b.aheadOf id c = 1 then b.readAhead id c
        else b

/-- The work of a row of Table 5.12 that moves data. -/
def moveRow (op : TOp) (id : Nat) (b : Block) : Block :=
  b.workOn id (fun c => c.op == op) fun c b => b.moveWork id c

/-- SKID (R177, R185 to R192). -/
def execSkid (t : TStep) (s : State) : Host.Outcome State Fault Refusal :=
  s.upd (tensorRow specSkid none (moveRow .skid) t)
/-- GATHER (R178, R333). -/
def execGather (t : TStep) (s : State) : Host.Outcome State Fault Refusal :=
  s.upd (tensorRow specGather none (moveRow .gather) t)
/-- SCATTER (R179). -/
def execScatter (t : TStep) (s : State) : Host.Outcome State Fault Refusal :=
  s.upd (tensorRow specScatter none (moveRow .scatter) t)

/-! Acceptance (R156 check 4). -/

/-- PERM is the identity, the type UINT32, the form the descriptor form and the rank 1 (R178). -/
def indexOk (d : Desc) : Bool := dType d == 0x05 && dShape d == 0 && dRank d == 1 && permId d

/-- The shape and type checks of the movement commands. -/
def Cmd.moveShapes (c : Cmd) : Bool :=
  match c.op with
  | .skid => dType c.ta == dType c.tb && (!isScaled (dType c.ta) || blockDim c.ta == blockDim c.tb)
  | _ =>
    indexOk c.tb && permId c.ta && permId c.tc && dType c.ta == dType c.tc && c.dim < dRank c.ta && c.dim < dRank c.tc &&
      (!isScaled (dType c.ta) || c.dim ≠ 0)

/-- R156 check 4 for SKID, GATHER and SCATTER: MALFORMED, then OVERLAP_REJECT (R177 to R180, R186). -/
def Cmd.acceptMove (c : Cmd) : Option Nat :=
  if !c.moveShapes then some stMalformed
  else if c.staged && 2 ^ 21 < c.overlap then some stOverlap
  else none

end Sys2Proof.Machine
end

