-- ==== Sys2Proof/Machine/Elements.lean ====
section
/-! DEFINITION. Elements of operands in local space: reading their codes, their values (R202, Table 7.4), converting values to destination types (R213, R214), and writing a destination in storage order. -/

namespace Sys2Proof.Machine

/-! Reading. -/

/-- The number in `n` bytes at a local address, where the command may reach them (R142, R175). -/
def Block.localNat (b : Block) (c : Cmd) (a n : Nat) : Option Nat := (b.cmdLocal c a n).map fun l => b.locBits l n

/-- The code of the element at a storage index: its bits, and for an MX type the block's scale 256 times over. -/
def Block.loadCode (b : Block) (c : Cmd) (d : Desc) (s : List Nat) : Option Nat :=
  let t := dType d
  if isScaled t then
    let off := typeBits t * (ix s 0 % 32)
    match b.localNat c (scaleAddr d s) 1,
      b.localNat c ((dataAddr d s + off / 8) % 2 ^ 64) ((off + typeBits t - 1) / 8 - off / 8 + 1) with
    | some sc, some v => some (256 * sc + v / 2 ^ (off % 8) % 2 ^ typeBits t)
    | _, _ => none
  else b.localNat c (elemAddr d s) (typeBytes t)

/-- The code at a view index; FILL outside the view (R174). -/
def Block.loadView (b : Block) (c : Cmd) (d : Desc) (v : List Nat) : Option Nat :=
  if inView d v then b.loadCode c d (storeIx d v) else some (fillCode d)

/-! Values. -/

/-- The element formats of the MX floating-point types. -/
def mxFmt (t : Nat) : Fmt :=
  if t = 0x11 then { eb := 4, mb := 3 } else if t = 0x12 then { eb := 5, mb := 2 } else if t = 0x13 then { eb := 3, mb := 2 }
  else if t = 0x14 then { eb := 2, mb := 3 } else { eb := 2, mb := 1 }

/-- The code of the largest finite value (Table 7.4). -/
def mxMax (t : Nat) : Nat :=
  if t = 0x11 then 0x7E else if t = 0x12 then 0x7B else if t = 0x13 then 0x1F else if t = 0x14 then 0x1F else 0x7

/-- emax of Table 7.4. -/
def mxEmax (t : Nat) : Int :=
  if t = 0x11 then 8 else if t = 0x12 then 15 else if t = 0x13 then 4 else if t = 0x14 then 2 else if t = 0x15 then 2 else 0

/-- A code of a format without infinities or NaNs. -/
def Fmt.plain (f : Fmt) (x : Nat) : Fp :=
  let s := x / 2 ^ (f.eb + f.mb) % 2 = 1
  let ex := x / 2 ^ f.mb % 2 ^ f.eb
  let fr := x % 2 ^ f.mb
  if ex = 0 then .fin s fr (1 - f.bias - f.mb) else .fin s (2 ^ f.mb + fr) ((ex : Int) - f.bias - f.mb)

/-- The value of an MX element before its scale. -/
def mxPlain (t x : Nat) : Fp :=
  if t = 0x10 then (let q := sext 8 x; .fin (q < 0) q.natAbs (-6))
  else if t = 0x11 then (if x % 128 = 0x7F then .nan else (mxFmt t).plain x)
  else if t = 0x12 then (mxFmt t).decode x
  else (mxFmt t).plain x

/-- A value times 2^k. -/
def Fp.scale (v : Fp) (k : Int) : Fp :=
  match v with
  | .fin s m e => .fin s m (e + k)
  | v => v

/-- The value of an element's code (R202). -/
def elemValue (t code : Nat) : Fp :=
  if isScaled t then
    (if code / 256 = 0xFF then .nan else (mxPlain t (code % 256)).scale ((code / 256 : Nat) - 127))
  else if t = 0x06 then fp16.decode code
  else if t = 0x07 then bf16.decode code
  else if t = 0x08 then fp32.decode code
  else if t % 2 = 0 then Fp.ofInt (sext (typeBits t) code)
  else Fp.ofInt (code % 2 ^ typeBits t : Nat)

/-! Conversion (Table 7.7, R214). -/

/-- A value in an unscaled destination type: floating-point types round to nearest even, integer types round and
saturate, NaN gives 0. -/
def convertCode (t : Nat) (v : Fp) : Nat :=
  if t = 0x06 then fp16.encode v
  else if t = 0x07 then bf16.encode v
  else if t = 0x08 then fp32.encode v
  else if t % 2 = 0 then (v.toInt (typeBits t) % (2 ^ typeBits t : Nat)).toNat
  else (v.toUint (typeBits t)).toNat

def Fp.isFinite : Fp → Bool
  | .fin _ _ _ => true
  | _ => false

/-- ⌊log2⌋ of the largest magnitude of finite values; none where all are 0. -/
def maxLog : List Fp → Option Int
  | [] => none
  | .fin _ m e :: vs =>
    let r := maxLog vs
    if m = 0 then r else some (match r with
      | some x => max x (e + (Nat.log2 m : Int))
      | none => e + (Nat.log2 m : Int))
  | _ :: vs => maxLog vs

/-- The scale byte of a store block (R214 steps 1 to 3). -/
def blockScale (t : Nat) (vs : List Fp) : Nat :=
  if !vs.all Fp.isFinite then 0xFF
  else match maxLog vs with
    | none => 0x7F
    | some l => (clampInt (-127) 127 (l - mxEmax t) + 127).toNat

/-- The code of an element under a scale byte (R214 step 4). -/
def mxCode (t scale : Nat) (v : Fp) : Nat :=
  if scale = 0xFF then 0
  else match v with
    | .fin s m e =>
      let e' := e - ((scale : Int) - 127)
      if m = 0 ∧ t ≠ 0x10 then (mxFmt t).signCode s
      else if t = 0x10 then (clampInt (-128) 127 (rneInt s m (e' + 6)) % 256).toNat
      else (mxFmt t).signCode s + min ((mxFmt t).magnitude m e') (mxMax t)
    | _ => 0

/-- The values of the in-bounds elements of the block at a storage index (R214); none where one cannot be had. -/
def storeBlock (d : Desc) (s : List Nat) (val : List Nat → Option Fp) : Option (List Fp) :=
  ((List.range 32).filter fun e => ix s 0 + e < dSize d 0).mapM fun e =>
    val (viewIx d (s.set 0 (ix s 0 + e)))

/-- A block whose elements are all ±0 has scale byte 0x7F and every element +0 (R214 step 2). -/
def allZero (vs : List Fp) : Bool := vs.all Fp.isFinite && (maxLog vs).isNone

/-- A byte of an MX block that holds the values `vs` (R214), with FILL in its pad elements (R172). -/
def blockByte (d : Desc) (x : TByte) (vs : List Fp) : Nat :=
  let t := dType d
  let sc := blockScale t vs
  if x.part = 0 then sc
  else mxByte t (x.part - 1) fun e =>
    if padElem d x.s e then fillElem d
    else if allZero vs then 0 else mxCode t sc (vs.getD e (.fin false 0 0))

/-- The traversal byte of a destination whose element at view index v has value `val v` (R172, R211, R214). -/
def valueByte (d : Desc) (val : List Nat → Option Fp) (x : TByte) : Option Nat :=
  if !inStore d x.s then some (fillByte d x)
  else if isScaled (dType d) then (storeBlock d x.s val).map (blockByte d x)
  else (val (viewIx d x.s)).map fun v => convertCode (dType d) v / 256 ^ x.part % 256

/-! Writing. -/

/-- Write bytes of the destination in traversal order until one halts; a byte whose value needs an access that R142
does not permit ends the command with PROTECT_FAULT. -/
def Mv.deliver (m : Mv) (val : TByte → Option Nat) : List TByte → Mv × Option Halt
  | [] => (m, none)
  | x :: xs => match val x with
    | none => (m, some (.stop stProtect))
    | some v => match m.put x.s (x.addr m.c.dest) v with
      | .error h => (m, some h)
      | .ok m' => ({ m' with c := { m'.c with cursor := m'.c.cursor + 1 } } : Mv).deliver val xs

/-- A command writes its whole destination and ends with a status, or with PROTECT_FAULT at the byte that its job may
not write (R175). Masked bytes are counted (R182). -/
def Block.deliverAll (b : Block) (id : Nat) (c : Cmd) (val : TByte → Option Nat) (st : Nat) : Block :=
  let r := (Mv.start b id c).deliver val (travAll c.dest)
  (r.1.tallied.setCmd id r.1.c).finish id (match r.2 with
    | some (.stop s) => s
    | some _ => stProtect
    | none => st)

end Sys2Proof.Machine
end

