-- ==== Sys2Proof/Machine/Mma.lean ====
section
/-! DEFINITION. The matrix engines: accumulator banks, MMA, MMA.ZERO and MMA.STORE (chapter 7). -/

namespace Sys2Proof.Machine

/-- A bank after reset: EMPTY, with no owner (R197). CLASS is 0 EMPTY, 1 FP, 2 INT. -/
def bankZero (_ : Nat) : Bank := { cls := 0, owner := none, elems := [] }

def Block.bank (b : Block) (k : Nat) : Bank := SMap.get bankZero b.fk.banks k
def Block.setBank (b : Block) (k : Nat) (x : Bank) : Block :=
  b.setFk fun f => { f with banks := SMap.set bankZero f.banks k x }

/-- The engine of a command. -/
def Cmd.engine (c : Cmd) : Nat :=
  match c.unit with
  | .engine e => e
  | _ => 0

/-- The bank that MOD names: engine and ACC (R151, R194). -/
def Cmd.bankKey (c : Cmd) : Nat := c.engine * 4 + c.form.md.toNat / 4 % 4

/-- acc[m][n] (Table 7.1). -/
def Bank.word (x : Bank) (m n : Nat) : Word := SMap.get zeroW x.elems (64 * m + n)

/-- The TYPE of the operands of an OP (Table 7.2). -/
def mmaType (op : Nat) : Nat :=
  if op ≤ 5 then 0x10 + op else if op = 6 then 0x00 else if op = 7 then 0x07 else 0x06

/-- The class of an OP: 2 INT for MMA.I8, 1 FP for the others (Table 7.2). -/
def mmaClass (op : Nat) : Nat := if op = 6 then 2 else 1

/-- The group along K (Table 7.2). -/
def mmaGroup (op : Nat) : Nat := if op ≤ 5 then 32 else 8

/-- Beats per 32 K (Table 7.2). -/
def mmaBeats (op : Nat) : Nat := if op = 5 then 16 else if op = 7 ∨ op = 8 then 128 else 32

/-- The MMA's checks of Table 7.3. -/
def Block.mmaOk (b : Block) (c : Cmd) : Bool :=
  let op := c.form.op.toNat
  let bk := b.bank c.bankKey
  dType c.ta == mmaType op && dType c.tb == mmaType op &&
  viewExt c.ta 1 ≤ 64 && viewExt c.tb 1 ≤ 64 && viewExt c.ta 0 == viewExt c.tb 0 && viewExt c.ta 0 ≤ 8192 &&
  ([2, 3, 4, 5].all fun k => viewExt c.ta k == 1 && viewExt c.tb k == 1) &&
  (5 < op || (dPi c.ta 0 == 0 && dPi c.tb 0 == 0)) &&
  bk.owner == some c.job && (bk.cls == 0 || bk.cls == mmaClass op) &&
  dSpace c.ta == 1 && dSpace c.tb == 1

/-- The MMA.STORE's checks of Table 7.3. -/
def Block.mmaStoreOk (b : Block) (c : Cmd) : Bool :=
  (b.bank c.bankKey).owner == some c.job && viewExt c.ta 1 ≤ 64 && viewExt c.ta 0 ≤ 64 &&
  ([2, 3, 4, 5].all fun k => viewExt c.ta k == 1) && dSpace c.ta == 1

/-- An MMA is accepted: its bank takes the class of its format (R196). -/
def Block.mmaClaim (b : Block) (c : Cmd) : Block :=
  b.setBank c.bankKey { b.bank c.bankKey with cls := mmaClass c.form.op.toNat }

/-- R156 check 4 for the MMA commands. -/
def Block.acceptMma (b : Block) (c : Cmd) : Option Nat :=
  match c.op with
  | .mma => if b.mmaOk c then none else some stMalformed
  | .mmaStore => if b.mmaStoreOk c then none else some stMalformed
  | _ => none

/-- The codes of row `r` of an operand: view index (k, r) for k below K; none where the command may not read one. -/
def Block.rowCodes (b : Block) (c : Cmd) (d : Desc) (r : Nat) : Nat → Option (List Nat)
  | 0 => some []
  | k + 1 =>
    match b.rowCodes c d r k, b.loadView c d [k, r, 0, 0, 0, 0] with
    | some xs, some x => some (xs ++ [x])
    | _, _ => none

/-- The rows of an operand. -/
def Block.rowsOf (b : Block) (c : Cmd) (d : Desc) : Option (List (List Nat)) :=
  (List.range (viewExt d 1)).mapM fun r => b.rowCodes c d r (viewExt d 0)

/-- The groups of a list. -/
def chunks {α : Type} (n : Nat) (xs : List α) : List (List α) :=
  (List.range (cdiv xs.length n)).map fun g => (xs.drop (n * g)).take n

/-- The group sum of R204 and R205: exact products, summed exactly, rounded once to FP32. -/
def groupSum (t : Nat) (xs ys : List Nat) : Fp :=
  f32 ((xs.zip ys).foldl (fun acc p => acc.add ((elemValue t p.1).mul (elemValue t p.2))) (.fin false 0 0))

/-- FP32 additions over a list in an order that `seed` chooses: at each step two of the values are taken out and their
rounded sum is put back (R204: any binary tree). (DEDUCED, log entry 32) -/
def anyTree : Nat → Nat → List Fp → Fp
  | 0, _, xs => xs.headD (.fin false 0 0)
  | fuel + 1, seed, xs =>
    let n := xs.length
    if n ≤ 1 then xs.headD (.fin false 0 0)
    else
      let i := seed % n
      let j := seed / n % (n - 1)
      let ys := xs.eraseIdx i
      anyTree fuel (seed / (n * (n - 1))) (f32add (xs.getD i .nan) (ys.getD j .nan) :: ys.eraseIdx j)

/-- A bank word of FP class after an MMA (R204, R205). (DEDUCED, log entry 32) -/
def mmaFp (op seed : Nat) (a0 : Word) (xs ys : List Nat) : Word :=
  let g := mmaGroup op
  let sums := ((chunks g xs).zip (chunks g ys)).map fun p => groupSum (mmaType op) p.1 p.2
  BitVec.ofNat 32 (fp32.encode (anyTree (sums.length + 1) seed (fp32.decode a0.toNat :: sums)))

/-- A bank word of INT class after an MMA (R203). -/
def mmaInt (a0 : Word) (xs ys : List Nat) : Word :=
  a0 + BitVec.ofInt 32 ((xs.zip ys).foldl (fun acc p => acc + sext 8 p.1 * sext 8 p.2) 0)

/-- One word of the product. -/
def mmaWord (op seed : Nat) (a0 : Word) (xs ys : List Nat) : Word :=
  if mmaClass op = 2 then mmaInt a0 xs ys else mmaFp op seed a0 xs ys

/-- The rows of a descriptor-form operand are contiguous and 64 B aligned (R208). -/
def rowsAligned (d : Desc) : Bool :=
  dShape d == 1 ||
    ((if isScaled (dType d) then dStride d 0 == 0 else dStride d 0 == typeBytes (dType d)) && dBase d % 64 == 0 &&
      dStride d 1 % 64 == 0)

/-- The beats that an MMA occupies the array (R208). (DEDUCED, log entry 33) -/
def Cmd.mmaBeats (c : Cmd) : Nat :=
  let n := cdiv (viewExt c.ta 1) 32 * cdiv (viewExt c.tb 1) 32 * cdiv (viewExt c.ta 0) 32 *
    Sys2Proof.Machine.mmaBeats c.form.op.toNat
  if permId c.ta && permId c.tb && rowsAligned c.ta && rowsAligned c.tb then n else 2 * n

/-- The bank after an MMA; the addition order of each word is a free value (R204). -/
def mmaBank (op : Nat) (seed : Nat → Nat) (x : Bank) (rows cols : List (List Nat)) : Bank :=
  let words := (rows.zipIdx.flatMap fun r => cols.zipIdx.map fun q =>
    (64 * r.2 + q.2, mmaWord op (seed (64 * r.2 + q.2)) (x.word r.2 q.2) r.1 q.1))
  { x with cls := mmaClass op, elems := words.foldl (fun m w => SMap.set zeroW m w.1 w.2) x.elems }

/-- The work of an MMA (R199, R203, R204). (DEDUCED, log entry 33) -/
def Block.mmaWork (b : Block) (id : Nat) (c : Cmd) : Block :=
  match b.rowsOf c c.ta, b.rowsOf c c.tb with
  | some rows, some cols =>
    let op := c.form.op.toNat
    let k := c.bankKey
    let b' := b.setBank k (mmaBank op (fun i => Config.freeNat (b.free + i)) (b.bank k) rows cols)
    let b' := { b' with free := b.free + 4096 }
    (b'.tally 0x26 c.engine (b.sqOf c) c.mmaBeats).finish id stDone
  | _, _ => b.finish id stProtect

/-- The work of an MMA.ZERO (R195); the cause BANK_TAKEN (Table 14.11). -/
def Block.mmaZeroWork (b : Block) (id : Nat) (c : Cmd) : Block :=
  let taken := match (b.bank c.bankKey).owner with
    | some j => j ≠ c.job && (b.findJob j).isSome
    | none => false
  let b := if taken then b.causeShaping 0 else b
  (b.setBank c.bankKey { cls := 0, owner := some c.job, elems := [] }).finish id stDone

/-- The value of a bank word (R213). (DEDUCED, log entry 33) -/
def Bank.value (x : Bank) (m n : Nat) : Fp :=
  if x.cls = 2 then Fp.ofInt (x.word m n).toInt else fp32.decode (x.word m n).toNat

/-- The work of an MMA.STORE (R211 to R214). -/
def Block.mmaStoreWork (b : Block) (id : Nat) (c : Cmd) : Block :=
  let x := b.bank c.bankKey
  b.deliverAll id c (valueByte c.ta fun v => some (x.value (ix v 1) (ix v 0))) stDone

/-- The row of a command is its operation and OP. -/
def isRow (op : TOp) (fn : BitVec 5) (c : Cmd) : Bool := c.op == op && c.form.op == fn

def mmaRow (fn : BitVec 5) (id : Nat) (b : Block) : Block :=
  b.workOn id (isRow .mma fn) fun c b => b.guard (b.firstOf id c) (·.mmaWork id c)

/-- MMA.MXI8 (Table 7.2). -/
def execMmaMxi8 (t : TStep) (s : State) : Host.Outcome State Fault Refusal :=
  s.upd (tensorRow specMma (some 0) (mmaRow 0) t)
/-- MMA.E4M3 (Table 7.2). -/
def execMmaE4m3 (t : TStep) (s : State) : Host.Outcome State Fault Refusal :=
  s.upd (tensorRow specMma (some 1) (mmaRow 1) t)
/-- MMA.E5M2 (Table 7.2). -/
def execMmaE5m2 (t : TStep) (s : State) : Host.Outcome State Fault Refusal :=
  s.upd (tensorRow specMma (some 2) (mmaRow 2) t)
/-- MMA.E3M2 (Table 7.2). -/
def execMmaE3m2 (t : TStep) (s : State) : Host.Outcome State Fault Refusal :=
  s.upd (tensorRow specMma (some 3) (mmaRow 3) t)
/-- MMA.E2M3 (Table 7.2). -/
def execMmaE2m3 (t : TStep) (s : State) : Host.Outcome State Fault Refusal :=
  s.upd (tensorRow specMma (some 4) (mmaRow 4) t)
/-- MMA.E2M1 (Table 7.2). -/
def execMmaE2m1 (t : TStep) (s : State) : Host.Outcome State Fault Refusal :=
  s.upd (tensorRow specMma (some 5) (mmaRow 5) t)
/-- MMA.I8 (Table 7.2). -/
def execMmaI8 (t : TStep) (s : State) : Host.Outcome State Fault Refusal :=
  s.upd (tensorRow specMma (some 6) (mmaRow 6) t)
/-- MMA.BF16 (Table 7.2). -/
def execMmaBf16 (t : TStep) (s : State) : Host.Outcome State Fault Refusal :=
  s.upd (tensorRow specMma (some 7) (mmaRow 7) t)
/-- MMA.F16 (Table 7.2). -/
def execMmaF16 (t : TStep) (s : State) : Host.Outcome State Fault Refusal :=
  s.upd (tensorRow specMma (some 8) (mmaRow 8) t)
/-- MMA.ZERO (R195). -/
def execMmaZero (t : TStep) (s : State) : Host.Outcome State Fault Refusal :=
  s.upd (tensorRow specMmaZero (some 0x10) (fun id b =>
    b.workOn id (fun c => c.op == .mmaZero) fun c b => b.guard (b.firstOf id c) (·.mmaZeroWork id c)) t)
/-- MMA.STORE (R211 to R214). -/
def execMmaStore (t : TStep) (s : State) : Host.Outcome State Fault Refusal :=
  s.upd (tensorRow specMmaStore (some 0x11) (fun id b =>
    b.workOn id (fun c => c.op == .mmaStore) fun c b => b.guard (b.firstOf id c) (·.mmaStoreWork id c)) t)

end Sys2Proof.Machine
end

