-- ==== Sys2Proof/Machine/Shaping.lean ====
section
/-! DEFINITION. WIN (8.2, 8.3): padding, windows, pooling and convolution. -/

namespace Sys2Proof.Machine

/-- A 32-bit field as a signed number. -/
def s32 (x : Nat) : Int := sext 32 x

/-- `pad_index` of R219; none is PAD. Modes: 0 ZERO, 1 CONST, 2 MIRROR, 3 REPEAT. -/
def padIndex (i : Int) (n mode : Nat) : Option Nat :=
  if 0 ≤ i ∧ i < n then some i.toNat
  else if mode ≤ 1 then none
  else if mode = 3 then some (if i < 0 then 0 else n - 1)
  else if n = 1 then some 0
  else
    let p : Int := 2 * ((n : Int) - 1)
    let j := i % p
    some (if j < n then j.toNat else (p - j).toNat)

/-- The padding value (R219): 0 in ZERO mode, else PADCONST in the source TYPE. (DEDUCED, log entry 27) -/
def padCode (t mode padconst : Nat) : Nat := if mode = 1 then padconst &&& fillMask t else 0

/-! WIN parameter block (Table 8.2). -/

def wKw (c : Cmd) : Nat := bits c.pb 0 8
def wKh (c : Cmd) : Nat := bits c.pb 8 8
def wSw (c : Cmd) : Nat := bits c.pb 16 8
def wSh (c : Cmd) : Nat := bits c.pb 24 8
def wDw (c : Cmd) : Nat := bits c.pb 32 16
def wDh (c : Cmd) : Nat := bits c.pb 48 16
def wOrgX (c : Cmd) : Int := s32 (pbW c.pb 2)
def wOrgY (c : Cmd) : Int := s32 (pbW c.pb 3)
def wImgY0 (c : Cmd) : Nat := pbW c.pb 4
def wImgH (c : Cmd) : Nat := pbW c.pb 5
def wPad (c : Cmd) : Nat := pbW c.pb 6 % 4
/-- DEDUCED, log entry 34. -/
def wAvgAll (c : Cmd) : Bool := pbW c.pb 6 / 4 % 2 = 1
def wPadConst (c : Cmd) : Nat := pbW c.pb 7
def wScale (c : Cmd) : Nat := pbW c.pb 8
def wBias (c : Cmd) : Nat := pbW c.pb 9

/-- The reserved words from `i` to 13 are 0 (R218). -/
def pbRest (pb : BitVec 512) (i : Nat) : Bool := (List.range 14).all fun k => k < i || pbW pb k == 0

/-- The height that rows are mapped against (R221). -/
def wHeight (c : Cmd) : Nat := if wImgH c = 0 then viewExt c.ta 2 else wImgH c

/-- The column of a tap, in the source or PAD. -/
def wCol (c : Cmd) (ox kx : Nat) : Option Nat :=
  padIndex (wOrgX c + (ox * wSw c + kx * wDw c : Nat)) (viewExt c.ta 1) (wPad c)

/-- The image row of a tap, or PAD. -/
def wRow (c : Cmd) (oy ky : Nat) : Option Nat :=
  padIndex (wOrgY c + (oy * wSh c + ky * wDh c : Nat)) (wHeight c) (wPad c)

/-- Every tap of every output row maps to a row that TA holds, or to PAD (R221). -/
def wRowsHeld (c : Cmd) : Bool :=
  (List.range (viewExt c.tc 2)).all fun oy => (List.range (wKh c)).all fun ky =>
    match wRow c oy ky with
    | none => true
    | some r => wImgY0 c ≤ r && r < wImgY0 c + viewExt c.ta 2

/-- An integer TYPE of Table 6.1. -/
def isInt (t : Nat) : Bool := t ≤ 0x05

/-- OP of WIN: 0 CONV, 1 MAX, 2 AVG, 3 MIN, 4 SUM (Table 5.12). -/
def wOp (c : Cmd) : Nat := c.form.op.toNat

/-- Table 8.3. -/
def wTypes (c : Cmd) : Bool :=
  let ta := dType c.ta
  let taps := viewExt c.ta 0 * wKh c * wKw c
  if wOp c = 0 then
    let tb := dType c.tb
    (((ta == 0x00 || ta == 0x01) && tb == 0x00) || (ta == 0x07 && tb == 0x07) || (ta == 0x06 && tb == 0x06) ||
      (isScaled ta && tb == ta && viewExt c.ta 0 % 32 == 0)) && taps ≤ 8192 && viewExt c.tb 3 ≤ 4096
  else
    (ta ≤ 0x03 || (0x06 ≤ ta && ta ≤ 0x08)) && viewExt c.ta 0 ≤ 4096 &&
      (if wOp c = 1 ∨ wOp c = 3 then dType c.tc == ta else !isScaled (dType c.tc))

/-- The extents of R223. -/
def wExtents (c : Cmd) : Bool :=
  viewExt c.tc 3 == viewExt c.ta 3 && viewExt c.ta 4 == 1 && viewExt c.ta 5 == 1 && viewExt c.tc 4 == 1 &&
  viewExt c.tc 5 == 1 &&
  (if wOp c = 0 then
    viewExt c.tb 0 == viewExt c.ta 0 && viewExt c.tb 1 == wKw c && viewExt c.tb 2 == wKh c && viewExt c.tb 4 == 1 &&
      viewExt c.tb 5 == 1 && viewExt c.tc 0 == viewExt c.tb 3
   else viewExt c.tc 0 == viewExt c.ta 0)

/-- The operands that the command uses. -/
def wOperands (c : Cmd) : List Desc := if wOp c = 0 then [c.ta, c.tb, c.tc] else [c.ta, c.tc]

/-- The fields of Table 8.2 lie in their ranges. (DEDUCED, log entry 34) -/
def wFields (c : Cmd) : Bool :=
  let r := fun (x top : Nat) => 1 ≤ x && x ≤ top
  r (wKw c) 32 && r (wKh c) 32 && r (wSw c) 32 && r (wSh c) 32 && r (wDw c) 4096 && r (wDh c) 4096 &&
  pbW c.pb 6 < 8 && pbRest c.pb 10 && (wOp c == 0 || (wScale c == 0 && wBias c == 0)) &&
  wScale c % 64 == 0 && wBias c % 64 == 0 &&
  (if wImgH c = 0 then wImgY0 c == 0 else wImgY0 c + viewExt c.ta 2 ≤ wImgH c)

/-- R156 check 4 for WIN: MALFORMED (R216 to R223), then OVERLAP_REJECT (R187). -/
def Cmd.acceptWin (c : Cmd) : Option Nat :=
  let ds := wOperands c
  if !(wFields c && (ds.all fun d => dSpace d == 1 && permId d) && wExtents c && wTypes c &&
      !(wPad c == 1 && ds.any fun d => isScaled (dType d)) && wRowsHeld c) then some stMalformed
  else if (ds.dropLast.any fun d => (overlapOf c.tc d).2 ≠ 0) then some stOverlap
  else none

/-! Taps. -/

/-- The taps of a window in order: ky outer, kx inner (R222). -/
def wTaps (c : Cmd) : List (Nat × Nat) :=
  (List.range (wKh c)).flatMap fun ky => (List.range (wKw c)).map fun kx => (ky, kx)

/-- A tap lies inside the image. -/
def wInside (c : Cmd) (ox oy : Nat) (t : Nat × Nat) : Bool :=
  (wCol c ox t.2).isSome && (wRow c oy t.1).isSome

/-- The code that a tap of channel `ci` reads: TA, or the padding value (R219, R221). -/
def Block.winCode (b : Block) (c : Cmd) (ci ox oy n : Nat) (t : Nat × Nat) : Option Nat :=
  match wCol c ox t.2, wRow c oy t.1 with
  | some x, some r => b.loadCode c c.ta (storeIx c.ta [ci, x, r - wImgY0 c, n, 0, 0])
  | _, _ => some (padCode (dType c.ta) (wPad c) (wPadConst c))

/-- The products of one output of CONV in the order of k, as exact values (R224). -/
def Block.convProducts (b : Block) (c : Cmd) (co ox oy n : Nat) : Option (List Fp) :=
  ((wTaps c).flatMap fun t => (List.range (viewExt c.ta 0)).map fun ci => (t, ci)).mapM fun p =>
    match b.winCode c p.2 ox oy n p.1, b.loadCode c c.tb (storeIx c.tb [p.2, p.1.2, p.1.1, co, 0, 0]) with
    | some x, some w =>
      if !wInside c ox oy p.1 && wPad c == 0 then some (.fin false 0 0)
      else some ((elemValue (dType c.ta) x).mul (elemValue (dType c.tb) w))
    | _, _ => none

/-- The sum of exact values. -/
def sumFp (xs : List Fp) : Fp := xs.foldl Fp.add (.fin false 0 0)

/-- The reduction of CONV: exact for integers, else group sums added in any order (R203, R204, R224).
(DEDUCED, log entry 32) -/
def convSum (c : Cmd) (seed : Nat) (ps : List Fp) : Fp :=
  if isInt (dType c.ta) then sumFp ps
  else
    let sums := (chunks (if isScaled (dType c.ta) then 32 else 8) ps).map fun g => f32 (sumFp g)
    anyTree (sums.length + 1) seed (.fin false 0 0 :: sums)

/-- Entry `i` of an FP32 array at a local address. -/
def Block.f32At (b : Block) (c : Cmd) (a i : Nat) : Option Fp := (b.localNat c (a + 4 * i) 4).map fp32.decode

/-- The post stage (R224). -/
def Block.convPost (b : Block) (c : Cmd) (co : Nat) (v : Fp) : Option Fp :=
  if wScale c = 0 ∧ wBias c = 0 then some v
  else
    let sc := if wScale c = 0 then some (Fp.ofInt 1) else b.f32At c (wScale c) co
    let bi := if wBias c = 0 then some (.fin false 0 0) else b.f32At c (wBias c) co
    match sc, bi with
    | some s, some d => some (f32add (f32mul (f32 v) s) d)
    | _, _ => none

/-- The larger (`up`) or smaller of two values, the earlier one when they are equal; a NaN wins (R225). -/
def poolPick (up : Bool) (acc v : Fp) : Fp :=
  if acc.isNan then acc else if v.isNan then v
  else if (if up then acc.lt v else v.lt acc) then v else acc

/-- The quotient of two integers, to nearest, ties to even. -/
def rneDiv (a : Int) (n : Nat) : Int :=
  let q := a / n
  let r := a % n
  if 2 * r < n then q else if (n : Int) < 2 * r then q + 1 else q + q % 2

/-- The integer of an exact value. -/
def Fp.int : Fp → Int
  | .fin s m e => rneInt s m e
  | _ => 0

/-- The result of pooling over tap values, each with whether it lies inside the image (R222, R225). AVG of integers rounds
its quotient to an integer, also where TC is of a floating-point type. (DEDUCED, log entry 34) (DESIGN CHOICE, log entry 85) -/
def poolValue (c : Cmd) (taps : List (Bool × Fp)) : Fp :=
  let t := dType c.ta
  let vs := taps.map (·.2)
  let cnt := (taps.filter (·.1)).length
  let sum := fun (xs : List Fp) => if isInt t then sumFp xs else xs.foldl f32add (.fin false 0 0)
  match wOp c with
  | 1 => (vs.drop 1).foldl (poolPick true) (vs.headD .nan)
  | 3 => (vs.drop 1).foldl (poolPick false) (vs.headD .nan)
  | 4 => sum vs
  | _ =>
    let used := if wAvgAll c then vs else (taps.filter (·.1)).map (·.2)
    let n := if wAvgAll c then wKh c * wKw c else cnt
    if n = 0 then elemValue t (padCode t (wPad c) (wPadConst c))
    else if isInt t then Fp.ofInt (rneDiv (sum used).int n)
    else f32div (sum used) (f32nat n)

/-- The value of an output element (R222). -/
def Block.winValue (b : Block) (c : Cmd) (seed : Nat → Nat) (v : List Nat) : Option Fp :=
  let ch := ix v 0
  let ox := ix v 1
  let oy := ix v 2
  let n := ix v 3
  if wOp c = 0 then
    match b.convProducts c ch ox oy n with
    | some ps => b.convPost c ch (convSum c
        (seed (ch + viewExt c.tc 0 * (ox + viewExt c.tc 1 * (oy + viewExt c.tc 2 * n)))) ps)
    | none => none
  else
    ((wTaps c).mapM fun t => (b.winCode c ch ox oy n t).map fun x =>
      (wInside c ox oy t, elemValue (dType c.ta) x)).map (poolValue c)

/-- A tap of an output lies outside the source (Table 8.1). -/
def wPadded (c : Cmd) (ox oy : Nat) : Bool :=
  (wTaps c).any fun t =>
    let x := wOrgX c + (ox * wSw c + t.2 * wDw c : Nat)
    let y := wOrgY c + (oy * wSh c + t.1 * wDh c : Nat)
    x < 0 || (viewExt c.ta 1 : Int) ≤ x || y < 0 || (wHeight c : Int) ≤ y

/-- The pixels (x, y) of the destination. -/
def outPixels (c : Cmd) : List (Nat × Nat) :=
  (List.range (viewExt c.tc 2)).flatMap fun y => (List.range (viewExt c.tc 1)).map fun x => (x, y)

/-- The result word's upper bytes: PADDED in [63:32] (Table 8.1). -/
def paddedResult (n : Nat) : BitVec 56 := BitVec.ofNat 56 (min n (2 ^ 32 - 1) * 2 ^ 24)

/-- The number of elements of an operand's view. -/
def viewCount (d : Desc) : Nat := (List.range 6).foldl (fun n k => n * viewExt d k) 1

/-- The beats of a WIN (R226). -/
def wBeats (c : Cmd) : Nat :=
  let t := dType c.ta
  if wOp c = 0 then
    let p := viewExt c.tc 1 * viewExt c.tc 2 * viewExt c.tc 3
    let beats := if isInt t then 32 else if t = 0x15 then 16 else if t = 0x06 ∨ t = 0x07 then 128 else 32
    cdiv p 32 * cdiv (viewExt c.tb 3) 32 * cdiv (viewExt c.ta 0 * wKh c * wKw c) 32 * beats
  else cdiv (viewCount c.tc * typeBytes t) 64 * (wKh c * wKw c)

/-- The SCALE and BIAS arrays lie within the ranges of R142 (R218). -/
def Block.winArraysOk (b : Block) (c : Cmd) : Bool :=
  (wScale c == 0 || (b.cmdLocal c (wScale c) (4 * viewExt c.tc 0)).isSome) &&
  (wBias c == 0 || (b.cmdLocal c (wBias c) (4 * viewExt c.tc 0)).isSome)

/-- The work of a WIN (R222 to R226). -/
def Block.winWork (b : Block) (id : Nat) (c : Cmd) : Block :=
  if b.winArraysOk c then
    let c := { c with
      result := paddedResult (((outPixels c).filter fun p => wPadded c p.1 p.2).length * viewExt c.tc 3) }
    let b' := b.deliverAll id c (valueByte c.tc (b.winValue c fun i => Config.freeNat (b.free + i))) stDone
    { (b'.tally 0x26 c.engine (b.sqOf c) (wBeats c)) with free := b.free + viewCount c.tc }
  else b.finish id stProtect

def winRow (fn : BitVec 5) (id : Nat) (b : Block) : Block :=
  b.workOn id (isRow .win fn) fun c b => b.guard (b.firstOf id c) (·.winWork id c)

/-- WIN.CONV (R222, R224). -/
def execWinConv (t : TStep) (s : State) : Host.Outcome State Fault Refusal :=
  s.upd (tensorRow specConv (some 0) (winRow 0) t)
/-- WIN.MAX (R225). -/
def execWinMax (t : TStep) (s : State) : Host.Outcome State Fault Refusal :=
  s.upd (tensorRow specWin (some 1) (winRow 1) t)
/-- WIN.AVG (R225). -/
def execWinAvg (t : TStep) (s : State) : Host.Outcome State Fault Refusal :=
  s.upd (tensorRow specWin (some 2) (winRow 2) t)
/-- WIN.MIN (R225). -/
def execWinMin (t : TStep) (s : State) : Host.Outcome State Fault Refusal :=
  s.upd (tensorRow specWin (some 3) (winRow 3) t)
/-- WIN.SUM (R225). -/
def execWinSum (t : TStep) (s : State) : Host.Outcome State Fault Refusal :=
  s.upd (tensorRow specWin (some 4) (winRow 4) t)

end Sys2Proof.Machine
end

