-- ==== Sys2Proof/Machine/Resample.lean ====
section
/-! DEFINITION. RSMP and WARP (8.4 to 8.6): sampling, colour conversion, normalisation and augmentation. -/

namespace Sys2Proof.Machine

/-- The parameters that RSMP (Table 8.5) and WARP (Table 8.7) share; `map` gives the source position of an output
column and row. -/
structure Rs where
  kernel : Nat
  pad : Nat
  padconst : Nat
  chroma : Bool
  siting : Bool
  fx : Nat
  fy : Nat
  cbAddr : Nat
  cbStride : Nat
  stage : Nat
  aug : Nat
  deriving DecidableEq, Repr

def rsOf (c : Cmd) : Rs :=
  let w := if c.op = .rsmp then pbW c.pb 4 else pbW c.pb 6
  let i := if c.op = .rsmp then 5 else 7
  { kernel := w % 8, pad := w / 8 % 4, padconst := pbW c.pb i, chroma := w / 2 ^ 16 % 2 = 1, siting := w / 2 ^ 17 % 2 = 1,
    fx := if c.op = .rsmp then w / 2 ^ 8 % 16 else 0, fy := if c.op = .rsmp then w / 2 ^ 12 % 16 else 0,
    cbAddr := pbW c.pb (i + 1), cbStride := pbW c.pb (i + 2), stage := pbW c.pb (i + 3), aug := pbW c.pb (i + 4) }

/-- The fields of the parameter block lie in their ranges. -/
def rsFields (c : Cmd) : Bool :=
  let r := rsOf c
  if c.op = .rsmp then
    r.kernel ≤ 3 && pbW c.pb 4 / 32 % 8 == 0 && pbW c.pb 4 / 2 ^ 18 == 0 && pbRest c.pb 10 &&
    pbW c.pb 2 ≠ 0 && pbW c.pb 3 ≠ 0 &&
    (if r.kernel = 3 then
      r.fx ≠ 0 && r.fy ≠ 0 && !r.chroma && pbW c.pb 0 % 2 ^ 16 == 0 && pbW c.pb 1 % 2 ^ 16 == 0 &&
      pbW c.pb 2 == r.fx * viewExt c.tc 1 * 2 ^ 16 && pbW c.pb 3 == r.fy * viewExt c.tc 2 * 2 ^ 16
     else r.fx == 0 && r.fy == 0)
  else
    r.kernel ≤ 1 && pbW c.pb 6 / 32 % 2 ^ 11 == 0 && pbW c.pb 6 / 2 ^ 18 == 0 && pbRest c.pb 12 &&
    viewExt c.tc 1 ≤ 65536 && viewExt c.tc 2 ≤ 65536

/-- Source channels: 3 under CHROMA (R227). -/
def srcChannels (c : Cmd) : Nat := if (rsOf c).chroma then 3 else viewExt c.ta 0

/-- The operands of R216, R227 and R232. -/
def rsOperands (c : Cmd) : Bool :=
  let r := rsOf c
  let t := dType c.ta
  dSpace c.ta == 1 && dSpace c.tc == 1 && permId c.ta && permId c.tc &&
  (t == 0x01 || t == 0x03 || (0x06 ≤ t && t ≤ 0x08)) &&
  viewExt c.ta 4 == 1 && viewExt c.ta 5 == 1 && viewExt c.tc 4 == 1 && viewExt c.tc 5 == 1 &&
  viewExt c.ta 0 ≤ 4 && viewExt c.tc 0 ≤ 4 && viewExt c.tc 3 == viewExt c.ta 3 && viewExt c.tc 0 == srcChannels c &&
  (!r.chroma || (viewExt c.ta 0 == 1 && (t == 0x01 || t == 0x03)))

/-- R156 check 4 for RSMP and WARP: MALFORMED, then OVERLAP_REJECT (R187). -/
def Cmd.acceptRs (c : Cmd) : Option Nat :=
  if !(rsFields c && rsOperands c && (rsOf c).stage % 64 == 0 && (rsOf c).aug % 64 == 0) then some stMalformed
  else if (overlapOf c.tc c.ta).2 ≠ 0 then some stOverlap
  else none

/-! Augmentation (R236, R237). -/

/-- Rounds of `gen`. -/
def genRounds : Nat → Nat → Nat → Nat
  | 0, x, _ => x
  | n + 1, x, k =>
    let x := (x ^^^ k) * 0xB5D39A2F6E81C74D % 2 ^ 64
    genRounds n (x ^^^ (x / 2 ^ 29)) ((k + 0x7F4A3C91D0E5B863) % 2 ^ 64)

/-- `gen` of R236. -/
def gen (seed stream seq d : Nat) : Nat :=
  genRounds 6 ((seq * 2 ^ 32 + (stream % 2 ^ 16) * 2 ^ 16 + d) % 2 ^ 64) seed

/-- Word `i` of a 64-byte block given as a number. -/
def blkW (a i : Nat) : Nat := a / 2 ^ (32 * i) % 2 ^ 32

/-- Draw `d` of an augmentation block. -/
def draw (a d : Nat) : Nat := gen (blkW a 0 + 2 ^ 32 * blkW a 1) (blkW a 3 % 2 ^ 16) (blkW a 2) d

/-- u24 of a draw. -/
def u24 (a d : Nat) : Nat := draw a d / 2 ^ 40

def augFlag (a : Option Nat) (i : Nat) : Bool :=
  match a with
  | some x => blkW x 4 / 2 ^ i % 2 = 1
  | none => false

/-- Draw 0 or 1 flips (R237). -/
def flips (a : Option Nat) (axis : Nat) : Bool :=
  match a with
  | some x => augFlag a axis && draw x axis / 2 ^ 48 ≤ blkW x 5 / 2 ^ (16 * axis) % 2 ^ 16
  | none => false

/-- Δ of JITTER on an axis, in 2^−16 units (R237). (DEDUCED, log entry 36) -/
def jitter (a : Option Nat) (axis : Nat) : Int :=
  match a with
  | some x =>
    if augFlag a 2 then (2 * (u24 x (2 + axis) : Int) - 2 ^ 24) * (blkW x (6 + axis) : Int) / 2 ^ 24 else 0
  | none => 0

/-- 2u − 1 of a draw. -/
def unit (a d : Nat) : Fp := let v : Int := 2 * (u24 a d : Int) - 2 ^ 24; .fin (v < 0) v.natAbs (-24)

/-! Sampling. -/

/-- A tap of one axis: its index and its weight. -/
structure KTap where
  i : Int
  w : Fp
  deriving DecidableEq, Repr

/-- The cubic convolution kernel at distance n ÷ 256, rounded once to FP32 (Table 8.6). -/
def cubic (n : Nat) : Fp :=
  let x : Int := n
  let v : Int :=
    if n ≤ 256 then 3 * x ^ 3 - 5 * 256 * x ^ 2 + 2 * 256 ^ 3
    else -(x ^ 3) + 5 * 256 * x ^ 2 - 8 * 256 ^ 2 * x + 4 * 256 ^ 3
  f32 (.fin (v < 0) v.natAbs (-25))

/-- i and phase of a position (R228). -/
def splitPos (pos : Int) : Int × Nat :=
  let p := (pos % 2 ^ 16 + 0x80) / 2 ^ 8
  if p = 256 then (pos / 2 ^ 16 + 1, 0) else (pos / 2 ^ 16, p.toNat)

/-- The taps of a kernel at a position (Table 8.6); 0 NEAREST, 1 BILINEAR, 2 BICUBIC. -/
def tapsAt (kernel : Nat) (pos : Int) : List KTap :=
  let q := splitPos pos
  if kernel = 0 then [{ i := (pos + 0x8000) / 2 ^ 16, w := Fp.ofInt 1 }]
  else if kernel = 1 then
    [{ i := q.1, w := .fin false (256 - q.2) (-8) }, { i := q.1 + 1, w := .fin false q.2 (-8) }]
  else
    [{ i := q.1 - 1, w := cubic (256 + q.2) }, { i := q.1, w := cubic q.2 }, { i := q.1 + 1, w := cubic (256 - q.2) },
     { i := q.1 + 2, w := cubic (512 - q.2) }]

/-- Σ w × s in order, each product and sum rounded to FP32 (R229). (DEDUCED, log entry 35) -/
def weighted : List (Fp × Fp) → Fp
  | [] => .fin false 0 0
  | (w, s) :: xs => xs.foldl (fun acc p => f32add acc (f32mul p.1 p.2)) (f32mul w s)

/-- Samples over two axes: rows of the horizontal pass, then the vertical pass (R229); `get` reads a sample by its
mapped column and row, PAD where either maps to it. -/
def separable (cols rows : List KTap) (w h pad : Nat) (get : Option (Nat × Nat) → Option Fp) : Option Fp :=
  (rows.mapM fun r =>
    (cols.mapM fun q =>
      (get (match padIndex q.i w pad, padIndex r.i h pad with
        | some x, some y => some (x, y)
        | _, _ => none)).map fun s => (q.w, s)).map fun xs => (r.w, weighted xs)).map weighted

/-- A source sample of channel `ch` of image `n` as FP32. -/
def Block.lumaAt (b : Block) (c : Cmd) (ch n : Nat) (xy : Option (Nat × Nat)) : Option Fp :=
  let t := dType c.ta
  match xy with
  | none => some (elemValue t (padCode t (rsOf c).pad (rsOf c).padconst))
  | some (x, y) => (b.loadCode c c.ta (storeIx c.ta [ch, x, y, n, 0, 0])).map (elemValue t)

/-- A chroma sample (R232): 0 Cb, 1 Cr. (DEDUCED, log entry 35) -/
def Block.chromaAt (b : Block) (c : Cmd) (k : Nat) (xy : Option (Nat × Nat)) : Option Fp :=
  let t := dType c.ta
  let r := rsOf c
  match xy with
  | none => some (elemValue t (padCode t r.pad r.padconst))
  | some (x, y) =>
    (b.localNat c (r.cbAddr + y * r.cbStride + (2 * x + k) * typeBytes t) (typeBytes t)).map (elemValue t)

/-- Chroma positions of a luma position, the halving rounded down (R232). -/
def chromaCol (siting : Bool) (pos : Int) : Int := if siting then (pos + 0x8000) / 2 - 0x8000 else pos / 2
def chromaRow (pos : Int) : Int := (pos + 0x8000) / 2 - 0x8000

/-- The source position of output column or row `o` of RSMP (R228). -/
def rsmpPos (org : Int) (len n o : Nat) : Int := org + (((2 * o + 1) * (len / n)) / 2 : Nat) - 0x8000

/-- The taps of AREA on an axis (Table 8.6). (DEDUCED, log entry 36) -/
def areaTaps (org : Int) (f o : Nat) : List KTap :=
  (List.range f).map fun j => { i := org / 2 ^ 16 + (o * f + j : Nat), w := Fp.ofInt 1 }

/-- An affine map of R230 from FP32 words. -/
def affine (a0 a1 a2 : Fp) (x y : Nat) : Int :=
  let xc : Fp := .fin false (2 * x + 1) (-1)
  let yc : Fp := .fin false (2 * y + 1) (-1)
  let v := f32sub (f32add (f32add (f32mul a0 xc) (f32mul a1 yc)) a2) (.fin false 1 (-1))
  match v with
  | .nan => -(2 ^ 46)
  | .inf s => if s then -(2 ^ 46) else 2 ^ 46
  | .fin s m e => clampInt (-(2 ^ 46)) (2 ^ 46) (rneInt s m (e + 16))

/-- A coefficient of the map, with its jitter (R237). (DEDUCED, log entry 36) -/
def affineShift (w : Nat) (d : Int) : Fp :=
  if d = 0 then fp32.decode w else f32 ((fp32.decode w).add (.fin (d < 0) d.natAbs (-16)))

/-- The source position of an output pixel. -/
def srcPos (c : Cmd) (a : Option Nat) (x y : Nat) : Int × Int :=
  if c.op = .rsmp then
    (rsmpPos (s32 (pbW c.pb 0) + jitter a 0) (pbW c.pb 2) (viewExt c.tc 1) x,
     rsmpPos (s32 (pbW c.pb 1) + jitter a 1) (pbW c.pb 3) (viewExt c.tc 2) y)
  else
    let w := fun i => fp32.decode (pbW c.pb i)
    (affine (w 0) (w 1) (affineShift (pbW c.pb 2) (jitter a 0)) x y,
     affine (w 3) (w 4) (affineShift (pbW c.pb 5) (jitter a 1)) x y)

/-- The taps of an output pixel in the luma plane: columns and rows. -/
def pixelTaps (c : Cmd) (a : Option Nat) (x y : Nat) : List KTap × List KTap :=
  let r := rsOf c
  if r.kernel = 3 then
    (areaTaps (s32 (pbW c.pb 0) + jitter a 0) r.fx x, areaTaps (s32 (pbW c.pb 1) + jitter a 1) r.fy y)
  else
    let p := srcPos c a x y
    (tapsAt r.kernel p.1, tapsAt r.kernel p.2)

/-- The taps of an output pixel in the chroma plane. -/
def chromaTaps (c : Cmd) (a : Option Nat) (x y : Nat) : List KTap × List KTap :=
  let r := rsOf c
  let p := srcPos c a x y
  (tapsAt r.kernel (chromaCol r.siting p.1), tapsAt r.kernel (chromaRow p.2))

/-- The resampled values of a pixel before the output path. -/
def Block.rsPixel (b : Block) (c : Cmd) (a : Option Nat) (x y n : Nat) : Option (List Fp) :=
  let r := rsOf c
  let w := viewExt c.ta 1
  let h := viewExt c.ta 2
  let t := pixelTaps c a x y
  if r.kernel = 3 then
    (List.range (viewExt c.ta 0)).mapM fun ch =>
      ((t.2.flatMap fun ty => t.1.map fun tx => (tx, ty)).mapM fun p =>
        b.lumaAt c ch n (match padIndex p.1.i w r.pad, padIndex p.2.i h r.pad with
          | some x, some y => some (x, y)
          | _, _ => none)).map fun vs =>
        f32div ((vs.drop 1).foldl f32add (vs.headD (.fin false 0 0))) (f32nat (r.fx * r.fy))
  else if r.chroma then
    let q := chromaTaps c a x y
    match separable t.1 t.2 w h r.pad (b.lumaAt c 0 n),
      separable q.1 q.2 (cdiv w 2) (cdiv h 2) r.pad (b.chromaAt c 0),
      separable q.1 q.2 (cdiv w 2) (cdiv h 2) r.pad (b.chromaAt c 1) with
    | some l, some cb, some cr => some [l, cb, cr]
    | _, _, _ => none
  else (List.range (viewExt c.ta 0)).mapM fun ch => separable t.1 t.2 w h r.pad (b.lumaAt c ch n)

/-- A tap of a pixel lies outside its plane (Table 8.1). (DEDUCED, log entry 35) -/
def rsPadded (c : Cmd) (a : Option Nat) (x y : Nat) : Bool :=
  let w := viewExt c.ta 1
  let h := viewExt c.ta 2
  let out := fun (n : Nat) (t : KTap) => t.i < 0 || (n : Int) ≤ t.i
  let t := pixelTaps c a x y
  t.1.any (out w) || t.2.any (out h) ||
    ((rsOf c).chroma && ((chromaTaps c a x y).1.any (out (cdiv w 2)) || (chromaTaps c a x y).2.any (out (cdiv h 2))))

/-! The output path (R233 to R235). -/

def stMatrix (s : Nat) : Nat := blkW s 0 % 8
def stDir (s : Nat) : Bool := blkW s 0 / 8 % 2 = 1
def stRange (s : Nat) : Bool := blkW s 0 / 16 % 2 = 1
def stBits (s : Nat) : Nat := blkW s 0 / 256 % 16
def stSwap (s : Nat) : Bool := blkW s 0 / 4096 % 2 = 1

/-- A stage block's fields lie in their ranges (Table 8.8). -/
def stageOk (s channels : Nat) : Bool :=
  blkW s 0 / 2 ^ 13 == 0 && blkW s 0 / 32 % 8 == 0 && blkW s 1 == 0 && (stBits s == 0 || 8 ≤ stBits s) && stMatrix s ≤ 3 &&
  ([10, 11, 12, 13, 14, 15].all fun i => blkW s i == 0) && (stMatrix s == 0 || channels == 3)

/-- An augmentation block's reserved fields are 0 (Table 8.10). -/
def augOk (a : Nat) : Bool :=
  blkW a 3 / 2 ^ 16 == 0 && blkW a 4 / 16 == 0 && ([10, 11, 12, 13, 14, 15].all fun i => blkW a i == 0)

/-- Normalisation of an integer sample of channel `ch` (R234). -/
def normalise (matrix : Nat) (dir range : Bool) (n ch : Nat) (s : Fp) : Fp :=
  let k := fun (m : Nat) => f32nat m
  let q := 2 ^ (n - 8)
  if matrix ≠ 0 ∧ !dir ∧ range then
    (if ch = 0 then f32div (f32sub s (k (16 * q))) (k (219 * q))
     else f32div (f32sub s (k (128 * q))) (k (224 * q)))
  else
    let v := f32div s (k (2 ^ n - 1))
    if matrix ≠ 0 ∧ !dir ∧ (ch = 1 ∨ ch = 2) then f32sub v (f32div (k (2 ^ (n - 1))) (k (2 ^ n - 1))) else v

/-- Kr and Kb in units of 10^−4 (Table 8.9). -/
def matrixK (m : Nat) : Int × Int := if m = 1 then (2990, 1140) else if m = 2 then (2126, 722) else (2627, 593)

/-- A quotient of integers rounded once to FP32. -/
def ratio (a d : Int) : Fp := f32 ((Fp.ofInt a).div (Fp.ofInt d))

/-- The coefficients of R235 by output and input channel. -/
def matrixCoef (m : Nat) (dir : Bool) : List (List Fp) :=
  let r := (matrixK m).1
  let bl := (matrixK m).2
  let u : Int := 10000
  let g := u - r - bl
  if dir then
    [[ratio r u, ratio g u, ratio bl u],
     [ratio (-r) (2 * (u - bl)), ratio (-g) (2 * (u - bl)), ratio (u - bl) (2 * (u - bl))],
     [ratio (u - r) (2 * (u - r)), ratio (-g) (2 * (u - r)), ratio (-bl) (2 * (u - r))]]
  else
    [[ratio 1 1, ratio 0 1, ratio (2 * (u - r)) u],
     [ratio 1 1, ratio (-(2 * bl * (u - bl))) (g * u), ratio (-(2 * r * (u - r))) (g * u)],
     [ratio 1 1, ratio (2 * (u - bl)) u, ratio 0 1]]

/-- The colour matrix (R235). (DEDUCED, log entry 35) -/
def colour (m : Nat) (dir : Bool) (v : List Fp) : List Fp :=
  match v with
  | [a0, a1, a2] => (matrixCoef m dir).map fun k =>
      f32add (f32add (f32mul (k.getD 0 .nan) a0) (f32mul (k.getD 1 .nan) a1)) (f32mul (k.getD 2 .nan) a2)
  | v => v

/-- PHOTO: v × c + b (R237). -/
def photo (a : Nat) (v : Fp) : Fp :=
  let br := f32mul (unit a 4) (fp32.decode (blkW a 8))
  let ct := f32add (Fp.ofInt 1) (f32mul (unit a 5) (fp32.decode (blkW a 9)))
  f32add (f32mul v ct) br

/-- Exchange channels 0 and 2; fewer than three channels stay as they are. (DESIGN CHOICE, log entry 86) -/
def swapChannels : List Fp → List Fp
  | a :: x :: c :: xs => c :: x :: a :: xs
  | v => v

/-- The output path of a pixel, up to its conversion (R233). -/
def outputPath (t : Nat) (stage aug : Option Nat) (v : List Fp) : List Fp :=
  let v := match stage with
    | some s =>
      let n := if stBits s = 0 then typeBits t else stBits s
      let v := if isInt t then v.zipIdx.map fun p => normalise (stMatrix s) (stDir s) (stRange s) n p.2 p.1 else v
      if stMatrix s ≠ 0 then colour (stMatrix s) (stDir s) v else v
    | none => v
  let v := match aug with
    | some a => if augFlag aug 3 then v.map (photo a) else v
    | none => v
  match stage with
  | some s =>
    let v := v.zipIdx.map fun p => f32add (f32mul p.1 (fp32.decode (blkW s (2 + p.2)))) (fp32.decode (blkW s (6 + p.2)))
    if stSwap s then swapChannels v else v
  | none => v

/-- The output pixel at (x, y) of image n, flips applied (R237). -/
def Block.outPixel (b : Block) (c : Cmd) (stage aug : Option Nat) (x y n : Nat) : Option (List Fp) :=
  let x := if flips aug 0 then viewExt c.tc 1 - 1 - x else x
  let y := if flips aug 1 then viewExt c.tc 2 - 1 - y else y
  (b.rsPixel c aug x y n).map (outputPath (dType c.ta) stage aug)

/-- An auxiliary block of 64 bytes: none where the pointer is 0, an error outside the ranges of R142 (R218). -/
def Block.auxBlock (b : Block) (c : Cmd) (a : Nat) : Except Nat (Option Nat) :=
  if a = 0 then .ok none
  else match b.localNat c a 64 with
    | some v => .ok (some v)
    | none => .error stProtect

/-- The beats of an RSMP or WARP (R231). -/
def rsBeats (c : Cmd) : Nat :=
  let r := rsOf c
  let e := viewCount c.tc
  if c.op = .warp ∨ r.kernel = 2 then cdiv e 16 else if r.kernel = 3 then cdiv (e * r.fx * r.fy) 64 else cdiv e 32

/-- The work of an RSMP or WARP (R227 to R237). -/
def Block.rsWork (b : Block) (id : Nat) (c : Cmd) : Block :=
  match b.auxBlock c (rsOf c).stage, b.auxBlock c (rsOf c).aug with
  | .ok stage, .ok aug =>
    if (match stage with
        | some s => !stageOk s (srcChannels c)
        | none => false) || (match aug with
        | some a => !augOk a
        | none => false) then b.finish id stMalformed
    else
      let n := ((outPixels c).filter fun p => rsPadded c aug p.1 p.2).length * viewExt c.tc 3
      let c := { c with result := paddedResult n }
      (b.deliverAll id c (valueByte c.tc fun v =>
        match b.outPixel c stage aug (ix v 1) (ix v 2) (ix v 3) with
        | some px => px[ix v 0]?
        | none => none) stDone).tally 0x26 c.engine (b.sqOf c) (rsBeats c)
  | _, _ => b.finish id stProtect

def rsRow (op : TOp) (id : Nat) (b : Block) : Block :=
  b.workOn id (fun c => c.op == op) fun c b => b.guard (b.firstOf id c) (·.rsWork id c)

/-- RSMP (R227 to R229). -/
def execRsmp (t : TStep) (s : State) : Host.Outcome State Fault Refusal :=
  s.upd (tensorRow specRsmp (some 0) (rsRow .rsmp) t)
/-- WARP (R230). -/
def execWarp (t : TStep) (s : State) : Host.Outcome State Fault Refusal :=
  s.upd (tensorRow specWarp (some 0) (rsRow .warp) t)

end Sys2Proof.Machine
end

