-- ==== Sys2Proof/Machine/Booms.lean ====
section
/-! DEFINITION. Host writes that define booms and their watermarks, and the paired read of FREE and IN_USE (12.3). -/

namespace Sys2Proof.Machine

/-- The fields of a BOOM_CFG word (Table 12.3). -/
def bcStands (w : Word) : Bool := bit w 31
def bcCount (w : Word) : Nat := bits w 16 15
def bcBase (w : Word) : Nat := bits w 0 16 * 1024

/-- Bytes of boom k's region under a BOOM_CFG word. -/
def bcBytes (k : Nat) (w : Word) : Nat := bcCount w * boomSize k

/-- The deck space of an enabled channel: its first byte and its size in the landing (R345). -/
def Deck.spaceBase (d : Deck) : Nat := bits d.space 0 7 * 2 ^ 16
def Deck.spaceBytes (d : Deck) : Nat := bits d.space 16 7 * 2 ^ 16

/-- EN of a deck channel. -/
def Block.deckEn (b : Block) (c : Nat) : Bool := c < 64 && b.rb (DK_CTRL c) 31

/-- A region of the landing shares a byte with the space of an enabled channel other than `except`. -/
def Block.meetsDeck (b : Block) (base len : Nat) (except : Option Nat) : Bool :=
  b.fk.decks.any fun e => b.deckEn e.1 && some e.1 ≠ except && overlaps base len e.2.spaceBase e.2.spaceBytes

/-- A region of a place shares a byte with a boom other than `except` (R335, R345). -/
def Block.meetsBoom (b : Block) (stands : Bool) (base len : Nat) (except : Option Nat) : Bool :=
  (List.range 8).any fun k => some k ≠ except && b.boomStands k == stands &&
    overlaps base len (b.boomBase k) (b.boomCount k * boomSize k)

/-- A region of every stand shares a byte with the scratchpad region of a started job (R335, R340). -/
def Block.meetsJob (b : Block) (base len : Nat) : Bool :=
  b.fk.jobs.any fun e => overlaps base len (hdrScrBase e.2.header * 1024) (hdrScrSize e.2.header * 1024)

/-- The checks of R335 on a BOOM_CFG word. -/
def Block.boomCfgOk (b : Block) (k : Nat) (w : Word) : Bool :=
  bcBase w % min (boomSize k) (2 ^ 16) == 0 && bcBase w + bcBytes k w ≤ standBytes &&
  !b.meetsBoom (bcStands w) (bcBase w) (bcBytes k w) (some k) &&
  (if bcStands w then !b.meetsJob (bcBase w) (bcBytes k w) else !b.meetsDeck (bcBase w) (bcBytes k w) none)

/-- Somebody waits for a buffer that boom k could give (R336). -/
def Block.boomWaited (b : Block) (k : Nat) : Bool :=
  b.fk.booms.waiters.any fun w =>
    match w with
    | .frame s id => ((b.frameOf s id).map fun f => f.cfg.pool == k).getD false
    | .thread th => (match (b.findThread th).map Thread.hold with
      | some (.balloc _ size) => size ≤ boomSize k
      | _ => false)

/-- BOOM_CTRL.MAINT. -/
def Block.maint (b : Block) : Bool := b.rb BOOM_CTRL 31

/-- A boom write is ignored (R335, R337). -/
def Block.boomIgnored (b : Block) (k : Nat) : Block := (b.wf BOOM_CTRL k 1 1).causeMovement 7

/-- An applied BOOM_CFG write: in maintenance mode every buffer becomes free (R335, R339). -/
def Block.boomApply (b : Block) (k : Nat) (data : Word) : Block :=
  let old := b.boomFree k
  let b := b.writeReg (BOOM_CFG k) data
  let b :=
    if b.maint then
      (b.setFk fun f => { f with booms := { f.booms with held := SMap.keep f.booms.held fun key _ => keyBoom key ≠ k } }).wf
        (BOOM_STAT k) 28 1 1
    else b
  let b := b.boomChanged k old
  (b.wf (BOOM_STAT k) 0 18 (b.boomFree k)).serveBooms

/-- A BOOM_CFG write (R335, R339). -/
def Block.boomCfg (b : Block) (k : Nat) (data : Word) : Block :=
  if b.boomCfgOk k data && (b.maint || (b.boomInUse k == 0 && !b.boomWaited k)) then b.boomApply k data
  else b.boomIgnored k

/-- BOOM_CFG_WRITE (R335, R339). -/
def execBoomCfgWrite (k : Nat) (data : Word) (s : State) : Host.Outcome State Fault Refusal :=
  s.upd fun b => b.guard (k < 8) fun b => b.portWrite (BOOM_CFG k) data (·.boomCfg k data)

/-- Levels that are not 0 fall in the order WARN, HOLD, CRIT (R337). -/
def marksOk (warn hold crit : Nat) : Bool :=
  (warn == 0 || hold == 0 || hold ≤ warn) && (hold == 0 || crit == 0 || crit ≤ hold) &&
    (warn == 0 || crit == 0 || crit ≤ warn)

/-- The offset is a watermark register. -/
def isMark (o : Nat) : Bool := 0x8100 ≤ o && o < 0x8200 && (o % 0x20 == 0x04 || o % 0x20 == 0x08 || o % 0x20 == 0x0C)

/-- A write to a watermark (R337). -/
def Block.boomMark (b : Block) (o : Nat) (data : Word) : Block :=
  let k := (o - 0x8100) / 0x20
  let v := bits data 0 18
  let level := fun r => if r = o then v else b.rf r 0 18
  if marksOk (level (BOOM_WARN k)) (level (BOOM_HOLD k)) (level (BOOM_CRIT k)) then b.writeReg o data
  else b.boomIgnored k

/-- BOOM_WATERMARK_WRITE (R337). -/
def execBoomWatermarkWrite (off : BitVec 20) (data : Word) (s : State) : Host.Outcome State Fault Refusal :=
  s.upd fun b => b.guard (isMark off.toNat) fun b => b.portWrite off.toNat data (·.boomMark off.toNat data)

/-- The capture that a read of BOOM_FREE makes (R339). -/
def Block.capInUse (b : Block) (k : Nat) : Block :=
  b.setBus fun u => { u with cap := SMap.put u.cap (BOOM_INUSE k) (BitVec.ofNat 32 (b.boomInUse k)) }

/-- BOOM_FREE_READ (R339). -/
def execBoomFreeRead (k : Nat) (s : State) : Host.Outcome State Fault Refusal :=
  s.upd fun b => b.guard (k < 8) fun b =>
    b.portRead (BOOM_FREE k) (BitVec.ofNat 32 (b.boomFree k)) (·.capInUse k)

end Sys2Proof.Machine
end

