-- ==== Sys2Proof/Machine/Queues.lean ====
section
/-! DEFINITION. Submission queues (14.1 to 14.4), the start of jobs and of their threads (4.1), completions and rings (14.5), and the disabling of a queue (R400). -/

namespace Sys2Proof.Machine

/-! Queues. -/

def qNew (_ : Nat) : SubQueue := { cache := [], scanning := false, again := false, bad := none, started := [] }

/-- Started entries whose OWN write is not done. -/
def SubQueue.starting (x : SubQueue) : Nat := x.started.length

def Block.q (b : Block) (n : Nat) : SubQueue := SMap.get qNew b.fk.queues n
def Block.setQ (b : Block) (n : Nat) (f : SubQueue → SubQueue) : Block :=
  b.setFk fun k => { k with queues := SMap.set qNew k.queues n (f (SMap.get qNew k.queues n)) }

def Block.sqEn (b : Block) (n : Nat) : Bool := b.rb (SQ_CFG n) 31
def Block.sqPause (b : Block) (n : Nat) : Bool := b.rb (SQ_CFG n) 30
/-- STATE: 0 off, 1 running, 2 draining, 3 stopped. -/
def Block.sqState (b : Block) (n : Nat) : Nat := b.rf (SQ_CFG n) 28 2
def Block.sqPrio (b : Block) (n : Nat) : Nat := b.rf (SQ_CFG n) 22 2
def Block.sqCtx (b : Block) (n : Nat) : Nat := b.rf (SQ_CFG n) 16 6
def Block.sqRing (b : Block) (n : Nat) : Nat := b.rf (SQ_CFG n) 12 4
def Block.sqEntries (b : Block) (n : Nat) : Nat := ringSize (b.rf (SQ_SIZE n) 0 13) 4096
def Block.sqHead (b : Block) (n : Nat) : Nat := b.rf (SQ_HEAD n) 0 12
def Block.sqFetch (b : Block) (n : Nat) : Nat := b.rf (SQ_FETCH n) 0 12
def Block.setFetch (b : Block) (n i : Nat) : Block := b.wf (SQ_FETCH n) 0 12 i

/-- The index of the oldest entry not started, which HEAD reaches once the OWN writes are acknowledged (R390).
(DEDUCED, log entry 60) -/
def Block.sqNext (b : Block) (n : Nat) : Nat := (b.sqHead n + (b.q n).starting) % b.sqEntries n

/-- The address of entry `i` (R381). -/
def Block.entryAddr (b : Block) (n i : Nat) : Nat := b.pair (SQ_BASE_LO n) + 64 * i

/-- RUNNING: jobs of the queue started and not yet completed. -/
def Block.sqRunning (b : Block) (n : Nat) : Nat := SMap.count b.fk.jobs fun _ j => j.sq == n

/-- A context is active (Table 4.7, check 1). -/
def Block.ctxActive (b : Block) (c : Nat) : Bool := b.rb (XL_CTX_CFG c) 31 && b.rf (XL_CTX_CFG c) 28 2 == 1

/-! Rings. -/

def ringNew (_ : Nat) : Ring := { pass := true, inUse := 0, since := 0, pend := [] }

def Block.ring (b : Block) (r : Nat) : Ring := SMap.get ringNew b.fk.rings r
def Block.setRing (b : Block) (r : Nat) (f : Ring → Ring) : Block :=
  b.setFk fun k => { k with rings := SMap.set ringNew k.rings r (f (SMap.get ringNew k.rings r)) }

def Block.crEntries (b : Block) (r : Nat) : Nat := ringSize (b.rf (CR_SIZE r) 0 15) 16384
def Block.crTail (b : Block) (r : Nat) : Nat := b.rf (CR_TAIL r) 0 14
def Block.crHead (b : Block) (r : Nat) : Nat := b.rf (CR_HEAD r) 0 14

/-- FREE of a ring: ENTRIES − 1 credits less those in use (R397). -/
def Block.crFree (b : Block) (r : Nat) : Nat := b.crEntries r - 1 - (b.ring r).inUse

/-- Take a credit. -/
def Block.takeCredit (b : Block) (r : Nat) : Block := b.setRing r fun x => { x with inUse := x.inUse + 1 }

/-- Return a credit without a completion (NOCOMP). -/
def Block.dropCredit (b : Block) (r : Nat) : Block := b.setRing r fun x => { x with inUse := x.inUse - 1 }

/-! The checks of an entry (Table 14.4). -/

/-- REASON 1: OPCODE, FLAGS and reserved fields (R384, R385). -/
def entFieldsOk (e : BitVec 512) : Bool :=
  entOpcode e ≤ 2 && entFlags e < 16 && bits e 0x20 31 == 0 && bits e 0xB0 16 == 0 && bits e 0xF0 16 == 0 &&
  bits e 0x10C 20 == 0 && bits e 0x14C 20 == 0 && bits e 0x180 128 == 0 &&
  (entOpcode e == 1 || (entProg e == 0 && entArg e == 0 && entFrag e == 0)) &&
  (entGate e || (entGateCtr e == 0 && entGateVal e == 0)) &&
  (entSig e || (entSigCtr e == 0 && bits e 0x160 32 == 0))

/-- The release of this block (GLB_VERSION). -/
def Block.verMajor (b : Block) : Nat := b.rf 0 16 16
def Block.verMinor (b : Block) : Nat := b.rf 0 8 8

/-- The program header at an offset of the program store. (DEDUCED, log entry 22) -/
def Block.headerAt (b : Block) (prog : Nat) : BitVec 512 := BitVec.ofNat 512 (memNat b.fk.pstore prog 64)

/-- Every logical thread slot on a tidy core in service (R37, Table 15.13 ledger 8). -/
def Block.threadSlots (b : Block) : List Nat :=
  (List.range 4096).filter fun th => b.coreIn (coreOf th) && !b.isOut (unitId 0x4 th)

/-- The header checks of Table 4.1 that do not change. -/
def Block.headerOk (b : Block) (prog : Nat) (h : BitVec 512) : Bool :=
  hdrMagic h == 0x50484B46 && hdrMajor h == b.verMajor && hdrMinor h ≤ b.verMinor && hdrCode h % 4 == 0 &&
  prog + 64 + hdrCode h ≤ 2 ^ 20 && 1 ≤ hdrMinconc h && hdrMinconc h ≤ hdrThreads h && hdrThreads h ≤ 4096 &&
  hdrSync h ≤ 256 && hdrScrBase h + hdrScrSize h ≤ 6144 && 64 ≤ hdrEntry h && hdrEntry h < 64 + hdrCode h &&
  hdrEntry h % 4 == 0 && hdrReservedZero h

/-- The header checks made at the fetch and again at the start: MINCONC against the thread slots in service, and the
scratchpad region against the stand booms (R99, R340). -/
def Block.headerNow (b : Block) (h : BitVec 512) : Bool :=
  hdrMinconc h ≤ b.threadSlots.length && !b.meetsBoom true (hdrScrBase h * 1024) (hdrScrSize h * 1024) none

/-- REASON 2 at the fetch. -/
def Block.progOk (b : Block) (e : BitVec 512) : Bool :=
  entOpcode e ≠ 1 ||
    (entProg e % 256 == 0 && b.headerOk (entProg e) (b.headerAt (entProg e)) && b.headerNow (b.headerAt (entProg e)))

/-- REASON 3. -/
def Block.ctrsOk (b : Block) (e : BitVec 512) : Bool :=
  (!entGate e || b.sharedBase ≤ entGateCtr e) && (!entSig e || b.sharedBase ≤ entSigCtr e)

/-- The reason for which an entry is malformed at its fetch (Table 14.4); 0 for none. (DEDUCED, log entry 61) -/
def Block.entryReason (b : Block) (n : Nat) (e : BitVec 512) : Nat :=
  if !entFieldsOk e then 1 else if !b.progOk e then 2 else if !b.ctrsOk e then 3 else if !b.ctxActive (b.sqCtx n) then 4 else 0

/-- The reason for which an entry is malformed at its start; 0 for none. (DEDUCED, log entry 61) -/
def Block.startReason (b : Block) (n : Nat) (e : BitVec 512) : Nat :=
  if entOpcode e = 1 && !(b.headerOk (entProg e) (b.headerAt (entProg e)) && b.headerNow (b.headerAt (entProg e))) then 2
  else if !b.ctxActive (b.sqCtx n) then 4 else 0

/-! Scans (R389, R391). -/

/-- Start a scan, or one more after the scan in progress. -/
def SubQueue.scan (x : SubQueue) : SubQueue := if x.scanning then { x with again := true } else { x with scanning := true }

/-- An SQ_DOORBELL write (R389, R400). -/
def Block.doorbell (b : Block) (n : Nat) : Block := b.guard (b.sqState n == 1) fun b => b.setQ n SubQueue.scan

/-- Drop the cached entries, and fetch from the oldest entry not started. (DEDUCED, log entry 60) -/
def Block.dropCache (b : Block) (n : Nat) : Block :=
  (b.setFetch n (b.sqNext n)).setQ n fun x => { x with cache := [], bad := none }

/-- An SQ_INVALIDATE write (R391). -/
def Block.sqInvalidate (b : Block) (n : Nat) : Block := b.guard (b.sqState n == 1) fun b => (b.dropCache n).doorbell n

/-- A scan reads the entry at FETCH: it is cached while OWN is 1, and the first malformed one is noted. -/
def Block.scanEntry (b : Block) (n : Nat) (e : BitVec 512) (reason : Nat) : Block :=
  let i := b.sqFetch n
  (b.setFetch n ((i + 1) % b.sqEntries n)).setQ n fun x =>
    { x with cache := x.cache ++ [{ idx := i, bits := e }]
             bad := if x.bad.isNone && reason ≠ 0 then some (i, reason, entTag e) else x.bad }

/-- The end of a scan; a doorbell that came during it causes one more. -/
def SubQueue.scanEnd (x : SubQueue) : SubQueue := { x with scanning := x.again, again := false }

/-- SQ_ENTRY_FETCH (R389, R393): `code` is the final outcome of the line read. An entry that cannot be read is
malformed with REASON 5; its content is not known. (DEDUCED, log entry 60) -/
def Block.entryFetch (b : Block) (n code : Nat) : Block :=
  let a := b.entryAddr n (b.sqFetch n)
  if code % 4 ≠ 0 then
    ((b.memFinal false code (a / 64)).used).scanEntry n (BitVec.ofNat 512 (b.fresh % 2 ^ 16)) 5
  else
    let e := BitVec.ofNat 512 (b.xnat a 64)
    if entOwn e then b.scanEntry n e (b.entryReason n e) else b.setQ n SubQueue.scanEnd

/-- A queue reads entries: it runs, a scan is in progress, its cache has room, and FETCH has not come round to an entry
whose OWN is still to be cleared (R390). (DEDUCED, log entry 60) -/
def Block.scans (b : Block) (n : Nat) : Bool :=
  n < 64 && b.sqState n == 1 && (b.q n).scanning && (b.q n).cache.length < 8 &&
    (b.q n).cache.length + (b.q n).starting < b.sqEntries n

/-! Starting (R100, R383). -/

/-- The head entry of a queue: the first in its cache. -/
def Block.headEntry (b : Block) (n : Nat) : Option CachedEntry := (b.q n).cache.head?

/-- The head entry is the queue's malformed one. -/
def Block.headBad (b : Block) (n : Nat) : Bool :=
  match b.headEntry n, (b.q n).bad with
  | some e, some x => e.idx == x.1
  | _, _ => false

/-- The gate of an entry is satisfied (R386). -/
def Block.gateOpen (b : Block) (e : BitVec 512) : Bool :=
  !entGate e || reached (b.counter (entGateCtr e)).value (BitVec.ofNat 32 (entGateVal e))

/-- GATED of SQ_STAT. -/
def Block.sqGated (b : Block) (n : Nat) : Bool :=
  match b.headEntry n with
  | some e => b.sqState n == 1 && !b.headBad n && !b.gateOpen e.bits
  | none => false

/-- The dispatcher places no thread on a slot that is under a reset (R421). -/
def Block.fenced (b : Block) (th : Nat) : Bool := b.underReset (unitId 0x4 th)

/-- The free thread slots (R100, R101). -/
def Block.freeSlots (b : Block) : List Nat :=
  b.threadSlots.filter fun th => (b.findThread th).isNone && !b.fenced th

/-- The region of a header overlaps the region of a running job (R100). -/
def Block.regionFree (b : Block) (h : BitVec 512) : Bool := !b.meetsJob (hdrScrBase h * 1024) (hdrScrSize h * 1024)

/-- The three resources of R100 are free together. -/
def Block.resourcesFree (b : Block) (h : BitVec 512) : Bool :=
  hdrMinconc h ≤ b.freeSlots.length && hdrSync h ≤ b.poolFree.length && b.regionFree h

/-- A boom at its CRIT level holds the starts of queue n (R337). -/
def Block.critHeld (b : Block) (n : Nat) : Bool :=
  !b.rb (0x8008 + 4 * (n / 32)) (n % 32) && (List.range 8).any fun k => b.boomAtLevel (BOOM_CRIT k) k

/-- The head entry may be looked at for a start: the queue runs unpaused, the gate is open and the entry is good. -/
def Block.headReady (b : Block) (n : Nat) : Option CachedEntry :=
  match b.headEntry n with
  | some e => if n < 64 && b.sqState n == 1 && !b.sqPause n && !b.headBad n && b.gateOpen e.bits then some e else none
  | none => none

/-- The head entry of queue n can start now (R383). -/
def Block.canStart (b : Block) (n : Nat) : Bool :=
  match b.headReady n with
  | some e => 0 < b.crFree (b.sqRing n) && b.startReason n e.bits == 0 && !b.critHeld n &&
      (entOpcode e.bits ≠ 1 || b.resourcesFree (b.headerAt (entProg e.bits))) &&
      (entOpcode e.bits ≠ 2 || b.sqRunning n == 0)
  | none => false

/-- How far queue n lies behind the last queue that started, in round robin (R383). -/
def Block.turn (b : Block) (n : Nat) : Nat := (n + 63 - b.fk.lastSq) % 64

/-- Queue m would start before queue n. -/
def Block.before (b : Block) (m n : Nat) : Bool :=
  b.sqPrio n < b.sqPrio m || (b.sqPrio m == b.sqPrio n && b.turn m < b.turn n)

/-- Queue n can start and its turn has come (R383). -/
def Block.startsNext (b : Block) (n : Nat) : Bool :=
  b.canStart n && (List.range 64).all fun m => m == n || !b.canStart m || !b.before m n

/-- Put a thread of a job in a free slot (R101, R102); which one is not defined. (DEDUCED, log entry 61) -/
def Block.placeThread (b : Block) (j : Nat) (job : Job) (idx : Nat) : Block :=
  match b.pick b.freeSlots with
  | none => b
  | some th =>
    let e := job.entry
    let s : SMap Dword :=
      [(1, entArg e % 2 ^ 48), (2, idx), (3, hdrThreads job.header),
       (4, entTag e + job.sq * 2 ^ 16 + job.ctx * 2 ^ 24), (5, entDeck e), (6, entFrag e % 2 ^ 48),
       (7, coreOf th), (8, job.epoch.toNat)].foldl
        (fun m (x : Nat × Nat) => SMap.set zeroD m x.1 (BitVec.ofNat 64 x.2)) []
    b.used.setThread th
      { job := j, jidx := idx, s := s, v := [], p := [], t := [], pc := BitVec.ofNat 20 (hdrEntry job.header),
        ep := job.epoch, hold := .none, issue := none }

/-- Take the head entry out of the cache: its OWN byte is to be written (R390). -/
def Block.entryStarts (b : Block) (n : Nat) : Block :=
  let own := match b.headEntry n with
    | some e => [BitVec.ofNat 8 (bits e.bits 0x38 8)]
    | none => []
  let b := b.setQ n fun x => { x with cache := x.cache.drop 1, started := x.started ++ own }
  (b.setFk fun k => { k with lastSq := n }).takeCredit (b.sqRing n)

/-- The signal of an entry, where its flag asks for one (R386). -/
def entSignal (e : BitVec 512) (ep : Byte) : Option (Nat × Nat × Byte) :=
  if entSig e then some (entSigCtr e, entSigInc e, ep) else none

/-- Signal for a completion. -/
def Block.signalFor (b : Block) (sq : Nat) (s : Option (Nat × Nat × Byte)) : Block :=
  match s with
  | some x => b.signal x.1 x.2.1 x.2.2 sq
  | none => b

/-- Post a completion, or leave it out under NOCOMP (R385, R386, R397). -/
def Block.post (b : Block) (r : Nat) (nocomp : Bool) (c : Completion) : Block :=
  if nocomp && c.status == stDone then (b.dropCredit r).signalFor c.sq c.sig
  else b.setRing r fun x => { x with pend := x.pend ++ [c] }

/-- A NOP or FENCE entry starts and completes with DONE (Table 14.3). (DEDUCED, log entry 61) -/
def Block.startEmpty (b : Block) (n : Nat) (e : CachedEntry) : Block :=
  let ep := b.deckEpoch (entDeck e.bits % 64)
  (((b.entryStarts n).tally 0x20 0 (some n) 1).tally 0x21 0 (some n) 1).post (b.sqRing n) (entNocomp e.bits)
    { job := entTag e.bits, sq := n, status := stDone, idx := e.idx, placed := 0, voided := 0, errors := 0,
      errThread := 0x1FFF, lastErr := 0, irq := entIrq e.bits, sig := entSignal e.bits ep, credit := true }

/-- A RUN entry starts its job (R100 to R102): the three resources are taken together, and the first MINCONC threads
start. (DEDUCED, log entry 61) -/
def Block.startRun (b : Block) (n : Nat) (e : CachedEntry) : Block :=
  let j := b.nextId
  let h := b.headerAt (entProg e.bits)
  let ep := b.deckEpoch (entDeck e.bits % 64)
  let r := ((b.entryStarts n).bumpId).lend j ep (hdrSync h)
  let job : Job :=
    { sq := n, ring := b.sqRing n, idx := e.idx, entry := e.bits, header := h, ctx := b.sqCtx n, epoch := ep,
      nextThread := hdrMinconc h, lent := r.2, tst := [], ended := none, placed := 0, voided := 0 }
  ((r.1.setJob j job).each (List.range (hdrMinconc h)) fun b i => b.placeThread j job i).tally 0x20 0 (some n) 1

/-- The start checks of an entry fail: the queue will stop on it (R393). -/
def Block.startFails (b : Block) (n : Nat) (e : CachedEntry) (reason : Nat) : Block :=
  b.setQ n fun x => { x with bad := some (e.idx, reason, entTag e.bits) }

/-- The head entry of queue n, where `p` accepts it, starts or is found malformed (R383, R393). -/
def Block.startHead (b : Block) (n : Nat) (p : BitVec 512 → Bool) : Block :=
  match b.headReady n with
  | none => b
  | some e =>
    if !p e.bits then b
    else if b.startReason n e.bits ≠ 0 then b.startFails n e (b.startReason n e.bits)
    else if b.startsNext n then (if entOpcode e.bits = 1 then b.startRun n e else b.startEmpty n e)
    else b

/-- JOB_START (R100, R383): the dispatcher starts the job of queue n's head entry. -/
def execJobStart (n : Nat) (s : State) : Host.Outcome State Fault Refusal :=
  s.upd fun b => b.whenLive fun b => b.startHead n fun e => entOpcode e == 1

/-- ENTRY_RUN (Table 14.3). -/
def execEntryRun (n : Nat) (s : State) : Host.Outcome State Fault Refusal :=
  s.upd fun b => b.whenLive fun b => b.startHead n fun e => entOpcode e == 1

/-- ENTRY_NOP (Table 14.3). -/
def execEntryNop (n : Nat) (s : State) : Host.Outcome State Fault Refusal :=
  s.upd fun b => b.whenLive fun b => b.startHead n fun e => entOpcode e == 0

/-- ENTRY_FENCE (Table 14.3). -/
def execEntryFence (n : Nat) (s : State) : Host.Outcome State Fault Refusal :=
  s.upd fun b => b.whenLive fun b => b.startHead n fun e => entOpcode e == 2

/-- THREAD_START (R101): the next thread of a job, in index order. -/
def execThreadStart (j : Nat) (s : State) : Host.Outcome State Fault Refusal :=
  s.upd fun b => b.whenLive fun b =>
    match b.findJob j with
    | none => b
    | some job => b.guard (job.ended.isNone && job.nextThread < hdrThreads job.header && !b.freeSlots.isEmpty) fun b =>
        (b.placeThread j job job.nextThread).setJob j { job with nextThread := job.nextThread + 1 }

/-! Completion (R103, R396). -/

/-- A job has disposed of its threads and commands, and each slot that it placed is delivered or voided (R103, R153); a
job of a context that is torn down also waits for the context's accesses (Table 14.8). -/
def Block.jobDone (b : Block) (j : Nat) (job : Job) : Bool :=
  (b.rf (XL_CTX_CFG job.ctx) 28 2 ≠ 2 || b.ctxQuiet job.ctx) &&
  (job.ended.isSome || job.nextThread == hdrThreads job.header) &&
  !(b.fk.threads.any fun e => e.2.job == j) && !(b.fk.cmds.any fun e => e.2.job == j) &&
  !(b.fk.decks.any fun e => e.2.closed.any fun x => match x.2 with
    | .placed _ o => o == some j
    | .voided _ _ => false)

/-- The lowest thread whose tst has counted a failure. -/
def Job.firstErr (job : Job) : Option (Nat × Tst) := job.tst.find? fun e => e.2.count ≠ 0

/-- STATUS, ERR_THREAD and LAST_ERR of a completion (R396). -/
def Job.outcome (job : Job) : Nat × Nat × Nat :=
  match job.ended with
  | some st => (st, 0x1FFF, 0)
  | none => match job.firstErr with
    | some (i, t) => (t.first.toNat, i, t.last.toNat)
    | none => (stDone, 0x1FFF, 0)

/-- ERRORS: the sum of tst.COUNT, saturating. -/
def Job.errors (job : Job) : Nat := min ((job.tst.map fun e => e.2.count.toNat).sum) (2 ^ 32 - 1)

/-- The completion of a job (Table 14.5). -/
def Job.completion (job : Job) : Completion :=
  { job := entTag job.entry, sq := job.sq, status := job.outcome.1, idx := job.idx, placed := job.placed,
    voided := job.voided, errors := job.errors, errThread := job.outcome.2.1, lastErr := job.outcome.2.2,
    irq := entIrq job.entry, sig := entSignal job.entry job.epoch, credit := true }

/-- A bank that its job no longer owns (R197). -/
def Bank.release (j : Nat) (x : Bank) : Bank := if x.owner = some j then { x with owner := none } else x

/-- A job completes: its counters, banks and boom buffers return, and its completion is posted (R103, R150, R197). -/
def Block.completeJob (b : Block) (j : Nat) (job : Job) : Block :=
  let b := (b.unlend job.lent).setFk fun k =>
    { k with jobs := SMap.erase k.jobs j, banks := SMap.mapVals k.banks fun _ x => x.release j }
  let b := (b.tally 0x21 0 (some job.sq) 1).giveBack (heldBy b (.job j))
  b.post job.ring (entNocomp job.entry) job.completion

/-- JOB_COMPLETE (R103). -/
def execJobComplete (j : Nat) (s : State) : Host.Outcome State Fault Refusal :=
  s.upd fun b => b.whenLive fun b =>
    match b.findJob j with
    | none => b
    | some job => b.guard (b.jobDone j job) fun b => b.completeJob j job

/-! Stopping (R393, R394) and the host's writes. -/

/-- The malformed entry's own completion. -/
def badCompletion (n idx tag : Nat) : Completion :=
  { job := tag, sq := n, status := stMalformed, idx := idx, placed := 0, voided := 0, errors := 0, errThread := 0x1FFF,
    lastErr := 0, irq := false, sig := none, credit := false }

/-- QUEUE_STOP (R393): every entry before the malformed one has started. -/
def Block.queueStop (b : Block) (n : Nat) : Block :=
  match (b.q n).bad with
  | none => b
  | some (idx, reason, tag) =>
    b.guard (n < 64 && b.sqState n == 1 && b.headBad n) fun b =>
      let b := ((b.wf (SQ_CFG n) 28 2 3).setReg (SQ_ERRIDX n) (BitVec.ofNat 32 (2 ^ 31 + reason * 2 ^ 24 + idx))).setFetch n idx
      let b := b.setQ n fun x => { x with cache := [], bad := none, scanning := false, again := false }
      (b.setRing (b.sqRing n) fun x => { x with pend := x.pend ++ [badCompletion n idx tag] }).causeControl 16

/-- QUEUE_STOP (R393). -/
def execQueueStop (n : Nat) (s : State) : Host.Outcome State Fault Refusal := s.upd fun b => b.whenLive (·.queueStop n)

/-- A write that sets EN starts an idle queue (R381, R389). (DEDUCED, log entry 60) -/
def Block.sqStart (b : Block) (n : Nat) (data : Word) : Block :=
  let r := bits data 12 4
  if b.sqEntries n ≠ 0 && 16 ≤ b.crEntries r then
    let b := (b.writeReg (SQ_CFG n) data).wf (SQ_CFG n) 28 2 1
    ((b.wf (SQ_HEAD n) 0 12 (b.sqHead n % b.sqEntries n)).dropCache n).doorbell n
  else b

/-- RESUME of a stopped queue (R394). -/
def Block.sqRestart (b : Block) (n : Nat) (data : Word) : Block :=
  ((((b.wf (SQ_CFG n) 28 2 1).wf (SQ_CFG n) 30 1 (bits data 30 1)).wf (SQ_ERRIDX n) 31 1 0)).doorbell n

/-- A write of EN = 0 drains the queue (R400). (DEDUCED, log entry 63) -/
def Block.sqDrain (b : Block) (n : Nat) : Block :=
  ((b.wf (SQ_CFG n) 31 1 0).wf (SQ_CFG n) 28 2 2).setQ n fun x =>
    { x with cache := [], bad := none, scanning := false, again := false }

/-- An SQ_CFG write (R381, R392, R394, R400): CTX, CR and PRIO change only while STATE is 0. -/
def Block.sqCfg (b : Block) (n : Nat) (data : Word) : Block :=
  let en := bit data 31
  match b.sqState n with
  | 0 => if en then b.sqStart n data else b.writeReg (SQ_CFG n) data
  | 1 => if en then b.wf (SQ_CFG n) 30 1 (bits data 30 1) else (b.wf (SQ_CFG n) 30 1 (bits data 30 1)).sqDrain n
  | 3 =>
    if en then (if bit data 27 then b.sqRestart n data else b.wf (SQ_CFG n) 30 1 (bits data 30 1))
    else (b.wf (SQ_CFG n) 30 1 (bits data 30 1)).sqDrain n
  | _ => if en then b else b.wf (SQ_CFG n) 30 1 (bits data 30 1)

/-- QUEUE_OFF (R400): a draining queue has no job left and every completion of it is written. -/
def Block.queueOff (b : Block) (n : Nat) : Block :=
  b.guard (n < 64 && b.sqState n == 2 && b.sqRunning n == 0 && (b.q n).starting == 0 &&
      !(b.fk.rings.any fun e => e.2.pend.any fun c => c.sq == n)) fun b =>
    ((b.wf (SQ_CFG n) 28 2 0).setFetch n (b.sqHead n)).causeControl 17

/-- An SQ_HEAD write (Table 14.1): only while STATE is 0. (DEDUCED, log entry 60) -/
def Block.sqHeadWrite (b : Block) (n : Nat) (data : Word) : Block :=
  b.guard (b.sqState n == 0) fun b => (b.writeReg (SQ_HEAD n) data).setFetch n (bits data 0 12)

/-- A host write to a register of queue n. -/
def sqRow (n off : Nat) (data : Word) (f : Block → Block) (s : State) : Host.Outcome State Fault Refusal :=
  s.upd fun b => b.guard (n < 64) fun b => b.portWrite off data f

/-- SQ_DOORBELL (R389, R400). -/
def execSqDoorbell (n : Nat) (data : Word) (s : State) : Host.Outcome State Fault Refusal :=
  sqRow n (SQ_DOORBELL n) data (·.doorbell n) s
/-- SQ_INVALIDATE (R391). -/
def execSqInvalidate (n : Nat) (data : Word) (s : State) : Host.Outcome State Fault Refusal :=
  sqRow n (SQ_INVALIDATE n) data (·.sqInvalidate n) s
/-- SQ_ENABLE (R381). -/
def execSqEnable (n : Nat) (data : Word) (s : State) : Host.Outcome State Fault Refusal :=
  sqRow n (SQ_CFG n) data (·.sqCfg n data) s
/-- SQ_DISABLE (R400). -/
def execSqDisable (n : Nat) (data : Word) (s : State) : Host.Outcome State Fault Refusal :=
  sqRow n (SQ_CFG n) data (·.sqCfg n data) s
/-- SQ_RESUME (R394). -/
def execSqResume (n : Nat) (data : Word) (s : State) : Host.Outcome State Fault Refusal :=
  sqRow n (SQ_CFG n) data (·.sqCfg n data) s
/-- SQ_PAUSE_WRITE (R392). -/
def execSqPauseWrite (n : Nat) (data : Word) (s : State) : Host.Outcome State Fault Refusal :=
  sqRow n (SQ_CFG n) data (·.sqCfg n data) s
/-- QUEUE_OFF (R400). -/
def execQueueOff (n : Nat) (s : State) : Host.Outcome State Fault Refusal := s.upd fun b => b.whenLive (·.queueOff n)

/-- SQ_ENTRY_FETCH (R389, R393). -/
def execSqEntryFetch (n code : Nat) (s : State) : Host.Outcome State Fault Refusal :=
  s.upd fun b => b.whenLive fun b => b.guard (b.scans n) fun b => b.entryFetch n code

/-! Completion rings (R395 to R399, R455). -/

/-- A completion's 32 bytes (Table 14.5). -/
def Completion.record (c : Completion) (phase : Bool) (now : Nat) : BitVec 256 :=
  let w0 := c.job % 2 ^ 16 + c.sq * 2 ^ 16 + c.status * 2 ^ 24
  let w1 := c.idx % 2 ^ 12 + b2n phase * 2 ^ 31
  let w5 := c.errThread % 2 ^ 13 + c.lastErr * 2 ^ 16
  BitVec.ofNat 256 (w0 + w1 * 2 ^ 32 + c.placed % 2 ^ 32 * 2 ^ 64 + c.voided % 2 ^ 32 * 2 ^ 96 + c.errors * 2 ^ 128 +
    w5 * 2 ^ 160 + now % 2 ^ 64 * 2 ^ 192)

/-- The ring's cause bit is due (R399). -/
def Block.crDue (b : Block) (r : Nat) (c : Completion) : Bool :=
  c.irq || 0x10 ≤ c.status ||
    (b.rb (CR_IRQ r) 31 && Nat.max 1 (b.rf (CR_IRQ r) 16 8) ≤ (b.ring r).since)

/-- A completion is written (R395, R397, R399, R386). (DEDUCED, log entry 62) -/
def Block.writeCompletion (b : Block) (r code : Nat) (c : Completion) : Block :=
  let t := b.crTail r
  let b := b.writeRecord (b.pair (CR_BASE_LO r) + 32 * t) (c.record (b.ring r).pass b.now) code
  let b := b.setRing r fun x =>
    { x with pend := x.pend.erase c, since := x.since + 1, pass := if t + 1 = b.crEntries r then !x.pass else x.pass }
  let b := (b.setReg (CR_TAIL r) (BitVec.ofNat 32 ((t + 1) % b.crEntries r))).satAdd (CR_STAT r) 16 16 1
  let b := if b.crDue r c then b.causeControl r else b
  let b := if 0x10 ≤ c.status then b.tally 0x22 0 (some c.sq) 1 else b
  b.signalFor c.sq c.sig

/-- The completion to write next: the oldest that has its credit or finds one. One of a malformed entry that finds none holds
up no other (R393). (DEDUCED, log entry 61) -/
def Block.completionStep (b : Block) (r code : Nat) : Block :=
  match (b.ring r).pend.find? fun c => c.credit || 0 < b.crFree r with
  | none => b
  | some c => (if c.credit then b else b.takeCredit r).writeCompletion r code c

/-- COMPLETION_WRITE (R397, R455). -/
def execCompletionWrite (r code : Nat) (s : State) : Host.Outcome State Fault Refusal :=
  s.upd fun b => b.whenLive fun b => b.guard (r < 16) fun b => b.completionStep r code

/-- A CR_HEAD write (R398). -/
def Block.crHeadWrite (b : Block) (r : Nat) (data : Word) : Block :=
  let n := b.crEntries r
  let h := bits data 0 14
  let moved := (h + n - b.crHead r) % n
  if n ≠ 0 ∧ h < n ∧ moved ≤ (b.crTail r + n - b.crHead r) % n then
    (b.setReg (CR_HEAD r) (BitVec.ofNat 32 h)).setRing r fun x => { x with inUse := x.inUse - moved }
  else b.satAdd (CR_STAT r) 0 16 1

/-- A CR_SIZE write (R398). -/
def Block.crSizeWrite (b : Block) (r : Nat) (data : Word) : Block :=
  b.guard ((b.ring r).inUse == 0 && (List.range 64).all fun n => !(b.sqEn n && b.sqRing n == r)) fun b =>
    (((b.writeReg (CR_SIZE r) data).setReg (CR_HEAD r) 0).setReg (CR_TAIL r) 0).setRing r fun x => { x with pass := true }

/-- A CR_IRQ write (R399): the completions that wait are counted against the new COUNT. (DEDUCED, log entry 62) -/
def Block.crIrqWrite (b : Block) (r : Nat) (data : Word) : Block :=
  let b := b.writeReg (CR_IRQ r) data
  b.guard (b.rb (CR_IRQ r) 31 && Nat.max 1 (b.rf (CR_IRQ r) 16 8) ≤ (b.ring r).since) (·.causeControl r)

/-- CR_HEAD_WRITE (R398). -/
def execCrHeadWrite (r : Nat) (data : Word) (s : State) : Host.Outcome State Fault Refusal :=
  s.upd fun b => b.guard (r < 16) fun b => b.portWrite (CR_HEAD r) data (·.crHeadWrite r data)
/-- CR_SIZE_WRITE (R398). -/
def execCrSizeWrite (r : Nat) (data : Word) (s : State) : Host.Outcome State Fault Refusal :=
  s.upd fun b => b.guard (r < 16) fun b => b.portWrite (CR_SIZE r) data (·.crSizeWrite r data)
/-- CR_IRQ_TIMER (R399): the earliest unsignalled completion has waited TIME_US. -/
def execCrIrqTimer (r : Nat) (s : State) : Host.Outcome State Fault Refusal :=
  s.upd fun b => b.whenLive fun b =>
    b.guard (r < 16 && b.rb (CR_IRQ r) 31 && b.rf (CR_IRQ r) 0 16 ≠ 0 && 0 < (b.ring r).since) fun b => b.causeControl r

end Sys2Proof.Machine
end

