-- ==== Sys2Proof/Machine/Health.lean ====
section
/-! DEFINITION. The fault log (15.2), the hang detector (15.5) and the triggers of a dump (R428). -/

namespace Sys2Proof.Machine

/-! The hang detector (R424, R425). -/

/-- The counter and the target of a thread held in WAIT. -/
def Thread.waits (t : Thread) : Option Nat :=
  match t.hold with
  | .wait c _ => some c
  | _ => none

/-- A job whose threads have all started, all wait on counters, and none of whose commands is in any unit.
(DEDUCED, log entry 70) -/
def Block.jobBlocked (b : Block) (j : Nat) (job : Job) : Bool :=
  let ts := b.fk.threads.filter fun e => e.2.job == j
  job.nextThread == hdrThreads job.header && !ts.isEmpty && ts.all (fun e => e.2.waits.isSome) &&
    !(b.fk.cmds.any fun e => e.2.job == j)

/-- A queue is non-idle: a job of it runs, or its head entry is fetched and not started. -/
def Block.nonIdle (b : Block) (n : Nat) : Bool := 0 < b.sqRunning n || (b.headEntry n).isSome

/-- A queue is blocked. -/
def Block.sqBlocked (b : Block) (n : Nat) : Bool :=
  b.nonIdle n &&
    (if 0 < b.sqRunning n then b.fk.jobs.all fun e => e.2.sq ≠ n || b.jobBlocked e.1 e.2 else b.sqGated n)

/-- The waited counters of a queue. -/
def Block.waitedCtrs (b : Block) (n : Nat) : List Nat :=
  if 0 < b.sqRunning n then
    b.fk.threads.filterMap fun e => match b.findJob e.2.job with
      | some j => if j.sq = n then e.2.waits else none
      | none => none
  else match b.headEntry n with
    | some e => if b.sqGated n then [entGateCtr e.bits] else []
    | none => []

/-- The block is hung. -/
def Block.hungNow (b : Block) : Bool :=
  let qs := (List.range 64).filter b.nonIdle
  !qs.isEmpty && qs.all b.sqBlocked &&
    qs.all fun n => (b.waitedCtrs n).all fun c => match b.producer c with
      | some p => b.sqBlocked p
      | none => false

/-- BLOCKED of HANG_Q. -/
def Block.hangQ (b : Block) : Nat :=
  if b.rb HANG_CFG 31 then (((List.range 64).filter b.sqBlocked).map fun q => 2 ^ q).sum else 0

/-- What must not change while a picture holds (R425): the waited counters' values, every queue's STATE and RUNNING,
and the jobs. (DEDUCED, log entry 70) -/
def Block.picture (b : Block) : List Nat :=
  (List.range 64).flatMap fun n =>
    [b.sqState n, b.sqRunning n] ++ (b.waitedCtrs n).map (fun c => (b.counter c).value.toNat) ++
      b.fk.nextId :: b.fk.jobs.map fun e => e.1

/-- HANG_EVALUATE (R424, R425): `us` is the oscillator time since the previous evaluation. (DEDUCED, log entry 70) -/
def Block.hangEvaluate (b : Block) (us : Nat) : Block :=
  if b.rb HANG_CFG 31 && b.hungNow then
    if b.rb HANG_STAT 30 && b.fk.hangSnap == b.picture then b.satAdd HANG_STAT 0 16 us
    else ((b.wf HANG_STAT 30 2 1).wf HANG_STAT 0 16 0).setFk fun k => { k with hung := false, hangSnap := b.picture }
  else ((b.wf HANG_STAT 30 2 0).wf HANG_STAT 0 16 0).setFk fun k => { k with hung := false, hangSnap := [] }

/-! Dump triggers (R428). -/

/-- The copies that a dump header takes at its start (Table 15.10). (DEDUCED, log entry 71) -/
def Block.dumpHeads (b : Block) : List Word :=
  let q := if b.live then b.hangQ else 0
  [b.reg 0, b.reg SPR_STAND_MAP, b.sprInventory, BitVec.ofNat 32 q, BitVec.ofNat 32 (q / 2 ^ 32)]

/-- A trigger starts a dump, or is counted while one is held or in progress (R428). (DEDUCED, log entry 71) -/
def Block.dumpTrigger (b : Block) (k : Nat) : Block :=
  if b.rb DMP_STAT 31 || b.rb DMP_STAT 30 then b.satAdd DMP_STAT 0 16 1
  else (b.wf DMP_STAT 30 1 1).setAo fun a =>
    { a with dumpRun := some { trigger := k, time := BitVec.ofNat 64 b.now, noAns := [], heads := b.dumpHeads } }

/-- HANG_FIRE (R425): the picture has held for the time that a firing needs, at the oscillator's accuracy.
(DEDUCED, log entry 70) -/
def Block.hangFire (b : Block) : Block :=
  b.guard (b.rb HANG_CFG 31 && b.rb HANG_STAT 30 && 980 ≤ b.rf HANG_STAT 0 16 && !b.fk.hung && b.hungNow &&
      b.fk.hangSnap == b.picture) fun b =>
    let b := (((b.setFk fun k => { k with hung := true }).wf HANG_STAT 31 1 1).satAdd HANG_STAT 16 14 1).causeHang 0
    if b.rb DMP_CTRL 30 then b.dumpTrigger 1 else b

/-- HANG_EVALUATE (R424). -/
def execHangEvaluate (us : Nat) (s : State) : Host.Outcome State Fault Refusal :=
  s.upd fun b => b.whenLive (·.hangEvaluate us)
/-- HANG_FIRE (R425). -/
def execHangFire (s : State) : Host.Outcome State Fault Refusal := s.upd fun b => b.whenLive Block.hangFire

/-! The fault log (R409, R412). -/

/-- A fault record (Table 15.2) enters the log. -/
def Block.logRecord (b : Block) (unit status domain check detail : Nat) : Block :=
  let i := HLT_LOG (b.rf HLT_LOG_IDX 0 4)
  let b := b.setReg i (BitVec.ofNat 32 (unit + status * 2 ^ 16 + domain * 2 ^ 24 + check * 2 ^ 28))
  let b := b.setReg (i + 4) (BitVec.ofNat 32 detail)
  let b := (b.setReg (i + 8) (BitVec.ofNat 32 b.now)).setReg (i + 12) (BitVec.ofNat 32 (b.now / 2 ^ 32))
  (b.satAdd HLT_LOG_IDX 16 16 1).wf HLT_LOG_IDX 0 4 (b.rf HLT_LOG_IDX 0 4 + 1)

/-- A transient fault is counted, recorded and reported (R409). -/
def Block.logTransient (b : Block) (unit check detail : Nat) : Block :=
  ((b.satAdd HLT_COUNT 16 16 1).logRecord unit stTransient 0 check detail).causeFault 0

/-- A lasting fault is counted, recorded and reported, and may start a dump (R409, R428). -/
def Block.logLasting (b : Block) (unit domain check detail : Nat) : Block :=
  let b := ((b.satAdd HLT_COUNT 0 16 1).logRecord unit stLasting domain check detail).causeFault 1
  if b.rb DMP_CTRL 29 then b.dumpTrigger 3 else b

end Sys2Proof.Machine
end

