-- ==== Sys2Proof/Machine/Flume.lean ====
section
/-! DEFINITION. The flume port (chapter 13): links, packets, own flows, routing, sending, receive ports, the input buffers, and ring events. Direction 0 is east, 1 west. -/

namespace Sys2Proof.Machine

/-! Owed writes of a delivery (R349, R370). -/

/-- Where a byte goes: an error halts the delivery, and no address skips the byte. -/
abbrev ByteMap := Nat → Except Halt (Option Nat)

/-- Every byte must be written: a missing translation suspends, an address beyond 48 bits fails (R352, R370). -/
def Block.mapMust (b : Block) (ctx : Nat) : ByteMap := fun va =>
  if va < 2 ^ 48 then
    match b.xlate ctx va true with
    | some pa => .ok (some pa)
    | none => .error (.miss va true)
  else .error (.stop stProtect)

/-- A byte beyond 48 bits is not written, and the rest goes on (R350). -/
def Block.mapSkip (b : Block) (ctx : Nat) : ByteMap := fun va =>
  if va < 2 ^ 48 then b.mapMust ctx va else .ok none

/-- Bytes that can be written without suspending are, the others are not (R192). -/
def Block.mapNow (b : Block) (ctx : Nat) : ByteMap := fun va =>
  .ok (if va < 2 ^ 48 then b.xlateNow ctx va true else none)

/-- How far a delivery has come: the block, the bytes that are done, the serial numbers of their line writes, and what halts
it. -/
structure Owing where
  b : Block
  n : Nat
  serials : List Nat
  halt : Option Halt

/-- The serial number of the write of a line that the agent owes. -/
def Block.oweSerial (b : Block) (a : Agent) (line : Nat) : Option Nat :=
  (b.fk.owed.find? fun x => x.req.agent == a && x.req.line == line).map (·.serial)

/-- A serial number joins a list once. -/
def addSerial (xs : List Nat) : Option Nat → List Nat
  | some x => if xs.contains x then xs else xs ++ [x]
  | none => xs

/-- A write of the line may be made: within the credits of the agent, and with no more than `most` lines in this step, where that is
not 0. -/
def Owing.room (o : Owing) (a : Agent) (most line : Nat) : Bool :=
  o.b.writeRoom a line && (most == 0 || o.serials.length < most || o.b.owes a line)

/-- Write bytes at their addresses in order, until one halts. -/
def Owing.run (a : Agent) (most : Nat) (tr : ByteMap) : List (Nat × Byte) → Owing → Owing
  | [], o => o
  | x :: xs, o =>
    match tr x.1 with
    | .error h => { o with halt := some h }
    | .ok none => Owing.run a most tr xs { o with n := o.n + 1 }
    | .ok (some pa) =>
      if o.room a most (pa / 64) then
        let b := o.b.owe a pa x.2
        Owing.run a most tr xs { o with b := b, n := o.n + 1, serials := addSerial o.serials (b.oweSerial a (pa / 64)) }
      else { o with halt := some .full }

/-- The agent writes bytes at their addresses, from nothing written on. -/
def Block.oweRun (b : Block) (a : Agent) (most : Nat) (tr : ByteMap) (xs : List (Nat × Byte)) : Owing :=
  Owing.run a most tr xs { b := b, n := 0, serials := [], halt := none }

/-! The ring and its links. -/

def Block.flOn (b : Block) : Bool := b.rb FL_CFG 31
def Block.flNode (b : Block) : Nat := b.rf FL_CFG 0 4
def Block.flMgr (b : Block) : Nat := b.rf FL_CFG 20 4
/-- Nodes of the ring: SIZE plus 1, where 0 acts as 1 (Table 13.6). -/
def Block.flSize (b : Block) : Nat := Nat.max 1 (b.rf FL_CFG 16 4) + 1

def Flume.link (f : Flume) (d : Nat) : Link := if d = 0 then f.east else f.west
def Flume.setLink (f : Flume) (d : Nat) (g : Link → Link) : Flume :=
  if d = 0 then { f with east := g f.east } else { f with west := g f.west }
def Block.link (b : Block) (d : Nat) : Link := b.fk.flume.link d
def Block.setLink (b : Block) (d : Nat) (g : Link → Link) : Block := b.setFlume fun f => f.setLink d g

/-- The bypass is closed (Table 2.23). -/
def Block.bypassed (b : Block) : Bool := b.rb GLB_BYP 31

/-- The link is fitted (Table 2.2). -/
def Block.linkThere (b : Block) (d : Nat) : Bool := if d = 0 then b.ao.straps.fe else d = 1 && b.ao.straps.fw

/-- The link carries packets: it is there and trained, the bypass is open, and `fk_fclk` runs (R47).
(DEDUCED, log entry 11) -/
def Block.linkUp (b : Block) (d : Nat) : Bool := b.linkThere d && !b.bypassed && (b.link d).trained && b.pins.fclkOn

/-- The link is down for good until it trains again (R363). -/
def Block.linkDown (b : Block) (d : Nat) : Bool := !b.linkThere d || (b.link d).failed

/-- STATE of FL_LINK (Table 13.6). -/
def Block.linkState (b : Block) (d : Nat) : Nat :=
  if b.bypassed then 3 else if (b.link d).trained then 2 else if (b.link d).training then 1 else 0

/-- Hops to a node in a direction; distances count node numbers (R366). -/
def Block.hops (b : Block) (d r : Nat) : Nat :=
  let e := (r + b.flSize - b.flNode % b.flSize) % b.flSize
  if d = 0 then e else (b.flSize - e) % b.flSize

/-- The node west of the link that a hop crosses: hop `i`, from 0 on, of a path in a direction. -/
def Block.linkAt (b : Block) (d i : Nat) : Nat :=
  let n := b.flSize
  let me := b.flNode % n
  (if d = 0 then me + i else me + n - 1 - i % n) % n

/-- A path of `h` hops in a direction crosses no link that is known to be down: this node's own, or one that a notice named
(R366, R375). (DEDUCED, log entry 59) -/
def Block.pathOk (b : Block) (d h : Nat) : Bool :=
  !b.linkDown d && (List.range h).all fun i => !b.fk.flume.down.contains (b.linkAt d i)

/-- A direction leads to a node that is there. -/
def Block.leads (b : Block) (d r : Nat) : Bool := b.pathOk d (b.hops d r) && !b.fk.flume.left.contains r

/-- The direction in which a packet goes to a node (R366): the shorter distance, east when equal, and where a link is down the
direction that remains. -/
def Block.dirTo (b : Block) (r : Nat) : Option Nat :=
  let d := if b.hops 0 r ≤ b.hops 1 r then 0 else 1
  [d, 1 - d].find? fun d => b.leads d r

/-- FL_ERR.UNREACH rises (R366, R370, R376, R377). -/
def Block.unreach (b : Block) (n : Nat) : Block := if n = 0 then b else (b.satAdd FL_ERR 0 16 n).causeFlume 20

/-! Control packets (Table 13.3). -/

/-- A control packet of source `src`: words 0x00 to 0x14, and the CRC. -/
def ctlPacket (src kind dst flow : Nat) (bcast : Bool) (w1 w2 w3 w4 w5 : Nat) : Packet :=
  let w0 := kind + src * 2 ^ 4 + dst * 2 ^ 8 + b2n bcast * 2 ^ 12 + flow * 2 ^ 16
  let body := w0 + w1 * 2 ^ 32 + w2 * 2 ^ 64 + w3 * 2 ^ 96 + w4 * 2 ^ 128 + w5 * 2 ^ 160
  { tag := BitVec.ofNat 12 (16 * src + 15), data := BitVec.ofNat 2048 (body + crc32c (leBytes 60 body) * 2 ^ 480) }

end Sys2Proof.Machine

namespace Sys2Proof

def Packet.flow (p : Packet) : Nat := Machine.bits p.tag 0 8
/-- Valid payload bytes (R364). -/
def Packet.payload (p : Packet) : Nat := 64 * (Machine.bits p.tag 8 2 + 1)
def Packet.isCtl (p : Packet) : Bool := p.flow % 16 = 15
def Packet.crcOk (p : Packet) : Bool := Machine.crc32c (Machine.leBytes 60 (Machine.bits p.data 0 480)) == Machine.bits p.data 480 32
def Packet.kind (p : Packet) : Nat := Machine.bits p.data 0 4
def Packet.src (p : Packet) : Nat := Machine.bits p.data 4 4
def Packet.dst (p : Packet) : Nat := Machine.bits p.data 8 4
def Packet.about (p : Packet) : Nat := Machine.bits p.data 16 8
def Packet.deck (p : Packet) : Nat := Machine.bits p.data 32 24
def Packet.epoch (p : Packet) : Nat := Machine.bits p.data 56 8
def Packet.rcv (p : Packet) : Nat := Machine.bits p.data 64 16
def Packet.consumer (p : Packet) : Nat := Machine.bits p.data 80 8
def Packet.chan (p : Packet) : Nat := Machine.bits p.data 88 6
def Packet.excess (p : Packet) : Bool := Machine.bits p.data 94 1 == 1
def Packet.length (p : Packet) : Nat := Machine.bits p.data 96 32
def Packet.status (p : Packet) : Nat := Machine.bits p.data 128 8
def Packet.node (p : Packet) : Nat := Machine.bits p.data 136 8
def Packet.nkind (p : Packet) : Nat := Machine.bits p.data 144 4
def Packet.nseq (p : Packet) : Nat := Machine.bits p.data 152 8
def Packet.arg (p : Packet) : Nat := Machine.bits p.data 160 16
/-- A good control packet of a kind. -/
def Packet.isKind (p : Packet) (k : Nat) : Bool := p.isCtl && p.kind == k
/-- The flow in which a packet keeps its order: its own, of OPEN, DECK_END, ABORT and GAP the flow concerned, and of reports and
notices their source's control flow (R364, R365). -/
def Packet.key (p : Packet) : Nat := if p.isCtl && 1 ≤ p.kind && p.kind ≤ 4 then p.about else p.flow
/-- An OPEN names a node as a receiver. -/
def Packet.names (p : Packet) (node : Nat) : Bool := p.rcv / 2 ^ node % 2 == 1

/-! Lanes (R360, Table 13.1). -/

/-- Lanes 0 to 516 of a flit: its data, SOP, the slice of the tag, and the link-control bit. -/
def Packet.lowLanes (p : Packet) (k : Nat) (llc : Bool) : BitVec 517 :=
  BitVec.ofNat 517 (Machine.bits p.data (512 * k) 512 + Machine.b2n (k == 0) * 2 ^ 512 + Machine.bits p.tag (3 * k) 3 * 2 ^ 513 +
    Machine.b2n llc * 2 ^ 516)

/-- Lanes 0 to 516 of a cycle without a flit. -/
def idleLanes (llc : Bool) : BitVec 517 := BitVec.ofNat 517 (Machine.b2n llc * 2 ^ 516)

/-- Even parity: the lane that makes the ones of a cycle even in number. -/
def parityLane (x : BitVec 517) : Bool := (List.range 517).foldl (fun p i => p != x.getLsbD i) false

/-- The 518 lanes of a cycle. -/
def lanes (x : BitVec 517) : BitVec 518 := BitVec.ofNat 518 (x.toNat + Machine.b2n (parityLane x) * 2 ^ 517)

/-- The four cycles of a packet, flit 0 first, with the link-control bits that pass beside it. -/
def Packet.onLink (p : Packet) (llc : Nat → Bool) : List (BitVec 518) :=
  (List.range 4).map fun k => lanes (p.lowLanes k (llc k))

end Sys2Proof

namespace Sys2Proof.Machine

/-- The link-control byte that goes out on a link; idle where none waits (Table 13.2). -/
def Link.llcByte (l : Link) : Byte := l.llc.headD 0

/-! Own flows (R364, R373 to R375). -/

def Block.flow? (b : Block) (n : Nat) : Option Flow := SMap.find b.fk.flume.flows n
def Block.setFlow (b : Block) (n : Nat) (x : Flow) : Block :=
  b.setFlume fun f => { f with flows := SMap.put f.flows n x }
def Block.dropFlow (b : Block) (n : Nat) : Block := b.setFlume fun f => { f with flows := SMap.erase f.flows n }

/-- The flow identifier of own flow `n`. -/
def Block.flowId (b : Block) (n : Nat) : Nat := 16 * b.flNode + n

/-- Free flows (FLOWS_FREE). -/
def Block.freeFlows (b : Block) : List Nat := (List.range 15).filter fun n => (b.flow? n).isNone

def Flow.dir (x : Flow) : Nat := if x.east then 0 else 1
def Flow.ackedBy (x : Flow) (r : Nat) : Nat := SMap.get zeroNat x.acked r
/-- Packets of the flow that node `r` has not acknowledged. -/
def Flow.lag (x : Flow) (r : Nat) : Nat := x.sent - x.ackedBy r
/-- Packets in flight: a multicast packet counts once, until its last receiver acknowledges it (R379).
(DEDUCED, log entry 57) -/
def Flow.inUse (x : Flow) : Nat := (x.receivers.map x.lag).foldl Nat.max 0

/-- FL_INFLIGHT.IN_USE. -/
def Block.flInUse (b : Block) : Nat := (b.fk.flume.flows.map fun e => e.2.inUse).sum

/-- The farthest of some nodes in a direction. -/
def Block.farthestOf (b : Block) (d : Nat) (rs : List Nat) : Nat :=
  rs.foldl (fun best r => if b.hops d best < b.hops d r then r else best) (rs.headD 0)

/-- The farthest receiver of a flow. -/
def Block.farthest (b : Block) (x : Flow) : Nat := b.farthestOf x.dir x.receivers

/-- FL_ALLOW as it acts (Table 13.6). -/
def Block.allow (b : Block) (r : Nat) : Nat := min 1024 (b.rf (FL_ALLOW r) 0 11)

/-- Queue a REPORT or NOTICE for a direction. -/
def Block.ctlOut (b : Block) (d : Nat) (p : Packet) : Block := b.setFlume fun f => { f with notices := f.notices ++ [(d, p)] }

/-- ABORT goes out in a direction to the farthest of the receivers that it reaches there; a node whose allowance is 0 gets
nothing (R369, R375). (DEDUCED, log entry 57) -/
def Block.abortOut (b : Block) (n st : Nat) (x : Flow) (d : Nat) (rs : List Nat) : Block :=
  match rs.filter fun r => b.allow r ≠ 0 with
  | [] => b
  | rs =>
    let p := ctlPacket b.flNode 3 (b.farthestOf d rs) (b.flowId n) false (x.deck + x.epoch.toNat * 2 ^ 24) 0 0 st 0
    b.setFlume fun f => { f with aborts := f.aborts ++ [(d, x.reserved, p)] }

/-- A flow aborts (R375): its unacknowledged packets are dropped and counted as delivered, and ABORT is sent where a
route remains: in the flow's direction, and the other way to receivers that it no longer reaches. (DEDUCED, log entry 57) -/
def Block.abortFlow (b : Block) (n st : Nat) : Block :=
  match b.flow? n with
  | none => b
  | some x => b.guard (n < 15) fun b =>
    let b := ((b.dropFlow n).satAdd FL_ERR2 16 16 1).causeFlume 19
    let near := x.receivers.filter fun r => b.leads x.dir r
    let far := x.receivers.filter fun r => !b.leads x.dir r && b.leads (1 - x.dir) r
    b.guard (x.opened && !b.bypassed) fun b => (b.abortOut n st x x.dir near).abortOut n st x (1 - x.dir) far

/-- Abort the flows that `p` accepts. -/
def Block.abortFlows (b : Block) (st : Nat) (p : Flow → Bool) : Block :=
  b.each ((b.fk.flume.flows.filter fun e => p e.2).map (·.1)) fun b n => b.abortFlow n st

/-- A flow whose receivers have acknowledged every packet up to DECK_END is free (R373). -/
def Block.freeIfDone (b : Block) (n : Nat) : Block :=
  match b.flow? n with
  | some x => if x.ended && x.receivers.all fun r => x.lag r == 0 then b.dropFlow n else b
  | none => b

/-! Ring events (R377, Table 13.5). -/

/-- The node west of the link that an event names: the link's own node where it is that node's east link. -/
def Block.eventLink (b : Block) (node arg : Nat) : Nat :=
  let n := b.flSize
  if arg % 2 = 0 then node % n else (node + n - 1) % n

/-- The link or node of an event lies on the route of a flow (R375). -/
def Block.onRoute (b : Block) (x : Flow) (kind node arg : Nat) : Bool :=
  let h := b.hops x.dir (b.farthest x)
  if kind = 1 then (List.range h).any fun i => b.linkAt x.dir i == b.eventLink node arg
  else if kind = 3 then 1 ≤ b.hops x.dir node && b.hops x.dir node ≤ h
  else false

/-- What an event teaches about the ring: links down and up, nodes gone and back (R366). (DEDUCED, log entry 59) -/
def Block.learnEvent (b : Block) (kind node arg : Nat) : Block :=
  let a := b.eventLink node arg
  b.setFlume fun f =>
    match kind with
    | 1 => { f with down := if f.down.contains a then f.down else f.down ++ [a] }
    | 2 => { f with down := f.down.filter (· ≠ a) }
    | 3 => { f with left := if f.left.contains node then f.left else f.left ++ [node] }
    | 4 => { f with left := f.left.filter (· ≠ node) }
    | _ => f

/-- An event is known here: the routes follow it, and the flows that it cuts abort (R366, R375). -/
def Block.eventSeen (b : Block) (kind node arg : Nat) : Block :=
  (b.learnEvent kind node arg).abortFlows stLasting fun x => b.onRoute x kind node arg

/-- A notice is recorded (R377), and acts. -/
def Block.recordNotice (b : Block) (nseq kind node arg : Nat) : Block :=
  ((b.setReg FL_NOTICE (BitVec.ofNat 32 (nseq * 2 ^ 24 + kind * 2 ^ 20 + node % 16 * 2 ^ 16 + arg))).causeFlume 16).eventSeen
    kind node arg

/-- The hops of a direction up to the first link known to be down, all round at most. -/
def Block.clearHops (b : Block) (d : Nat) : Nat :=
  if b.linkDown d then 0
  else (List.range (b.flSize - 1)).foldl (fun h i => if h = i ∧ b.pathOk d (i + 1) then i + 1 else h) 0

/-- How far a broadcast goes in a direction: each node once, half the ring each way, and round the other way where a link is
down. (DEDUCED, log entry 59) -/
def Block.reach (b : Block) (d : Nat) : Nat :=
  let n := b.flSize
  let east := min (b.clearHops 0) (Nat.max (n / 2) (n - 1 - b.clearHops 1))
  if d = 0 then east else min (b.clearHops 1) (n - 1 - east)

/-- The manager broadcasts an event as a NOTICE (R377). (DEDUCED, log entry 59) -/
def Block.flBroadcast (b : Block) (kind node arg : Nat) : Block :=
  let s := b.fk.flume.nseq + 1
  let b := b.setFlume fun f => { f with nseq := s }
  let n := b.flSize
  let b := b.each [0, 1] fun b d =>
    if b.reach d = 0 then b
    else b.ctlOut d (ctlPacket b.flNode 6 ((if d = 0 then b.flNode + b.reach d else b.flNode + n - b.reach d) % n) 0 true 0 0 0
      (node * 2 ^ 8 + kind * 2 ^ 16 + s.toNat * 2 ^ 24) arg)
  b.recordNotice s.toNat kind node arg

/-- This node sees a ring event (Table 13.5): the manager broadcasts it, any other node reports it to the manager.
(DEDUCED, log entry 59) -/
def Block.flEvent (b : Block) (kind node arg : Nat) : Block :=
  if !b.flOn then b
  else
    let b := b.eventSeen kind node arg
    if b.flNode = b.flMgr then b.flBroadcast kind node arg
    else match b.dirTo b.flMgr with
      | none => b.unreach 1
      | some d => b.ctlOut d (ctlPacket b.flNode 5 b.flMgr 0 false 0 0 0 (node * 2 ^ 8 + kind * 2 ^ 16) arg)

/-! Sending (R367, R369, R373, R374). -/

/-- Packets of this node that node `r` has not acknowledged. -/
def Block.unackedAt (b : Block) (r : Nat) : Nat :=
  (b.fk.flume.flows.map fun e => if e.2.receivers.contains r then e.2.lag r else 0).sum

/-- The allowances let a packet of the flow go (R369, R379). -/
def Block.mayGo (b : Block) (x : Flow) : Bool :=
  b.flInUse < 1024 && x.receivers.all fun r => b.unackedAt r < b.allow r

/-- The class bits of an OPEN. -/
def Flow.openWord (x : Flow) : Nat :=
  (x.receivers.map fun r => 2 ^ r).sum + x.consumer * 2 ^ 16 + x.chan * 2 ^ 24 + b2n (!x.reserved) * 2 ^ 30

/-- The next packet of an own flow (R373), and the flow after it; a node whose allowance is 0 gets nothing (Table 13.6).
(DEDUCED, log entry 57) -/
def Block.nextPacket (b : Block) (n : Nat) (x : Flow) : Option (Packet × Flow) :=
  let id := b.flowId n
  let w1 := x.deck + x.epoch.toNat * 2 ^ 24
  if !x.opened then
    (if x.receivers.isEmpty || x.receivers.any (fun r => b.allow r == 0) then none
     else some (ctlPacket b.flNode 1 (b.farthest x) id false w1 x.openWord 0 0 0, { x with opened := true }))
  else match x.gaps with
    | g :: rest => if b.allow g.dst = 0 then none else some (g, { x with gaps := rest })
    | [] =>
      if 256 ≤ x.out.length || ((x.flush || x.complete) && !x.out.isEmpty) then
        (if b.mayGo x then
          let xs := x.out.take 256
          some ({ tag := BitVec.ofNat 12 (id + (cdiv xs.length 64 - 1) * 2 ^ 8), data := BitVec.ofNat 2048 (leNat xs) },
            { x with out := x.out.drop 256, sent := x.sent + 1 })
         else none)
      else if x.complete && !x.ended then
        (if b.mayGo x then
          some (ctlPacket b.flNode 2 (b.farthest x) id false w1 0 x.bytes 0 0, { x with ended := true, sent := x.sent + 1 })
         else none)
      else none

/-- The link of a direction can take a packet of this node. -/
def Block.linkFree (b : Block) (d : Nat) : Bool := b.flOn && b.linkUp d && 0 < (b.link d).credits

/-- The bucket of reserved packets after `cycles` of fclk (R367). -/
def Block.bucketNow (b : Block) (cycles : Nat) : Nat := min 256 (b.fk.flume.bucket + cycles)

/-- The bucket admits a packet of the class. -/
def Block.admits (b : Block) (cycles : Nat) (reserved : Bool) : Bool := !reserved || 16 ≤ b.bucketNow cycles

/-- An own flow has a packet that its class lets go. (DEDUCED, log entry 57) -/
def Block.flowReady (b : Block) (cycles n : Nat) : Bool :=
  match b.flow? n with
  | some x => b.linkFree x.dir && (b.nextPacket n x).isSome && b.admits cycles x.reserved
  | none => false

/-- An ABORT of this node can go. -/
def Block.abortReady (b : Block) (cycles : Nat) (e : Nat × Bool × Packet) : Bool := b.linkFree e.1 && b.admits cycles e.2.1

/-- This node has a packet of a class that can go in a direction. -/
def Block.ownReady (b : Block) (cycles d : Nat) (reserved : Bool) : Bool :=
  (b.fk.flume.aborts.any fun e => e.1 == d && e.2.1 == reserved && b.abortReady cycles e) ||
    b.fk.flume.flows.any fun e => e.2.reserved == reserved && e.2.dir == d && b.flowReady cycles e.1

/-- A REPORT or NOTICE of this node waits for a direction. -/
def Block.noticeWaits (b : Block) (d : Nat) : Bool := b.fk.flume.notices.any fun e => e.1 == d

/-- Bytes join the link-control stream. -/
def Block.llcPush (b : Block) (d : Nat) (xs : List Nat) : Block :=
  b.setLink d fun l => { l with llc := l.llc ++ xs.map fun x => BitVec.ofNat 8 x }

/-- A packet leaves on a link: it takes a credit and the next number, and a replay copy is kept. -/
def Block.transmit (b : Block) (d : Nat) (p : Packet) : Block :=
  (b.setLink d fun l =>
    { l with replay := l.replay ++ [(l.seqOut, p)], seqOut := (l.seqOut + 1) % 64, credits := l.credits - 1 }).tally 0x03 d none 256

/-- The class of a packet at a link's output (R367): 0 for REPORT and NOTICE, 1 for R, 2 for X, which each OPEN that passes
teaches. A flow whose OPEN this node has not seen counts as X. (DEDUCED, log entry 59) -/
def Block.classOf (b : Block) (p : Packet) : Nat :=
  if p.isCtl && 5 ≤ p.kind then 0
  else match SMap.find b.fk.flume.classes p.key with
    | some true => 1
    | _ => 2

/-- The turn of a class on a link after one packet (R367): the node's own packet and a passing one alternate. -/
def Block.setTurn (b : Block) (d cls : Nat) (own : Bool) : Block :=
  b.setLink d fun l => if cls = 1 then { l with ownR := own } else if cls = 2 then { l with ownX := own } else l

/-- The place of the first packet in an input buffer that still passes on, has none of its flow before it, and is of a class. -/
def Block.passPlace (b : Block) (cls : Nat) : List HeldPacket → List Nat → Nat → Option Nat
  | [], _, _ => none
  | h :: hs, seen, i =>
    if h.pass && !seen.contains h.pk.key && b.classOf h.pk == cls then some i
    else b.passPlace cls hs (if h.pass then h.pk.key :: seen else seen) (i + 1)

/-- The next packet that passes from link `d` to the other, and its class (R367, R368, R376): notices first, then R in turn with
this node's own, then X likewise. (DEDUCED, log entry 59) -/
def Block.passNext (b : Block) (d : Nat) : Option (Nat × Nat) :=
  let e := 1 - d
  let at_ := fun (cls : Nat) => b.passPlace cls (b.link d).input [] 0
  if !b.linkFree e || b.noticeWaits e then none
  else match at_ 0, at_ 1, at_ 2 with
    | some i, _, _ => some (i, 0)
    | _, some i, _ => if (b.link e).ownR && b.ownReady 0 e true then none else some (i, 1)
    | _, _, some i => if b.ownReady 0 e true || ((b.link e).ownX && b.ownReady 0 e false) then none else some (i, 2)
    | _, _, _ => none

/-- This node's own packet of a class may go in a direction (R367): after notices, R before X, and in turn with the passing
packets of its class. -/
def Block.turnOf (b : Block) (cycles d : Nat) (reserved : Bool) : Bool :=
  let waits := fun (cls : Nat) => (b.passPlace cls (b.link (1 - d)).input [] 0).isSome
  !b.noticeWaits d && !waits 0 &&
    (if reserved then (b.link d).ownR || !waits 1
     else !b.ownReady cycles d true && !waits 1 && ((b.link d).ownX || !waits 2))

/-! Receiving (13.5). -/

/-- FL_RXP_CFG.EN of a port. -/
def Block.rxpEn (b : Block) (r : Nat) : Bool := r < 16 && b.rb (FL_RXP r 0x00) 31
def Block.rxpCtx (b : Block) (r : Nat) : Nat := b.rf (FL_RXP r 0x00) 24 6
def Block.rxpNbuf (b : Block) (r : Nat) : Nat := b.rf (FL_RXP r 0x00) 0 4
def Block.rxpFull (b : Block) (r : Nat) : Nat := b.rf (FL_RXP r 0x1C) 28 4

/-- The first flow number that stands for a deck of this node's own channels delivered into its own ports (R372). -/
def localFlow (c consumer : Nat) : Nat := 256 + 256 * c + consumer

/-- FL_RXUSED: packets held in the receive area. -/
def Block.rxUsed (b : Block) : Nat := (b.fk.flume.rxHeld.filter fun e => e.1 < 256).length

/-- The receive area takes one more packet of a source (R369). (DEDUCED, log entry 58) -/
def Block.rxRoom (b : Block) (src : Nat) : Bool :=
  (b.fk.flume.rxHeld.filter fun e => e.1 < 256 && e.1 / 16 == src).length < min 1024 (b.rf (FL_GRANT src) 0 11) &&
    b.rxUsed < 256 * b.rf FL_RXBUF 16 7

/-- The deck of a flow, at its port or announced. -/
def Block.rxDeck? (b : Block) (flow : Nat) : Option RxDeck :=
  match b.fk.flume.rx.find? fun e => e.2.flow == flow && e.2.ended.isNone with
  | some e => some e.2
  | none => b.fk.flume.opens.find? fun x => x.flow == flow && x.ended.isNone

/-- Change the deck of a flow that has not ended. -/
def Block.modRx (b : Block) (flow : Nat) (g : RxDeck → RxDeck) : Block :=
  let h := fun (x : RxDeck) => if x.flow = flow ∧ x.ended = none then g x else x
  b.setFlume fun f => { f with rx := SMap.mapVals f.rx fun _ x => h x, opens := f.opens.map h }

/-- Acknowledge a packet of a flow to its source (Table 13.2); a deck of this node's own needs none. -/
def Block.ackTo (b : Block) (flow n : Nat) : Block :=
  if 256 ≤ flow then b
  else match b.dirTo (flow / 16) with
    | some d => b.llcPush d [0x80, flow, n]
    | none => b

/-- Ports take the decks announced to them, oldest first, while a deck buffer is free (R370). (DEDUCED, log entry 58) -/
def Block.rxTake (b : Block) : Block :=
  b.each b.fk.flume.opens fun b x =>
    if !x.dropped && (SMap.find b.fk.flume.rx x.port).isNone && b.rxpFull x.port < b.rxpNbuf x.port then
      b.setFlume fun f => { f with rx := SMap.put f.rx x.port x, opens := f.opens.erase x }
    else b

/-- The first byte of a deck's buffer (R370). -/
def Block.rxBase (b : Block) (x : RxDeck) : Nat :=
  (b.pair (FL_RXP x.port 0x04) + x.deck % Nat.max 1 (b.rxpNbuf x.port) * (b.reg (FL_RXP x.port 0x0C)).toNat * 64) % 2 ^ 64

/-- What a receive port waits for (R370, Table 4.8). -/
def Block.rxNeed (b : Block) (x : RxDeck) (va cursor total : Nat) : Need :=
  { va := va, write := true, ctx := b.rxpCtx x.port, agent := 2, unit := 0, sq := 0x3F, tag := 0xFFFF, cursor := cursor,
    total := total }

/-- Bytes at addresses that rise from `va`. -/
def bytesAt (va : Nat) (xs : List Byte) : List (Nat × Byte) := xs.zipIdx.map fun e => (va + e.2, e.1)

def Block.setRx (b : Block) (r : Nat) (x : RxDeck) : Block := b.setFlume fun f => { f with rx := SMap.put f.rx r x }

/-- A packet of a port's deck leaves the receive area: it is acknowledged to its source. -/
def Block.rxTook (b : Block) (r : Nat) (x : RxDeck) (p : Packet) : Block :=
  ((b.setRx r { x with taken := x.taken + p.payload, cursor := 0 }).setFlume fun f =>
    { f with rxHeld := f.rxHeld.erase (x.flow, p) }).ackTo x.flow 1

/-- A port takes the next packet of its deck out of the receive area: written, or after a failure only acknowledged
(R370). (DEDUCED, log entry 58) -/
def Block.rxPacket (b : Block) (r : Nat) (x : RxDeck) (p : Packet) : Block :=
  if x.fail.isSome then b.rxTook r x p
  else
    let xs := (leBytes p.payload p.data.toNat).drop x.cursor
    let o := b.oweRun (.rxPort r) 0 (b.mapMust (b.rxpCtx r)) (bytesAt (b.rxBase x + x.taken + x.cursor) xs)
    let x := { x with cursor := x.cursor + o.n, written := x.written + o.n }
    match o.halt with
    | none => o.b.rxTook r x p
    | some (.miss va _) => o.b.setRx r { x with need := some (b.rxNeed x va (x.taken + x.cursor) (x.taken + p.payload)) }
    | some (.stop st) => o.b.setRx r { x with fail := some st }
    | some _ => o.b.setRx r x

/-- The landing has a credit for one more line write (R454). -/
def Block.rxCredit (b : Block) (r : Nat) : Bool := b.writesOf (.rxPort r) < b.tagCap true (.rxPort r)

/-- The oldest packet of a port's deck, where the port can take it. -/
def Block.rxNext (b : Block) (r : Nat) : Option (RxDeck × Packet) :=
  match SMap.find b.fk.flume.rx r with
  | some x =>
    if x.need.isNone && !b.isSusp (.rxPort r) && (x.fail.isSome || b.rxCredit r) then
      (b.fk.flume.rxHeld.find? fun e => e.1 == x.flow).map fun e => (x, e.2)
    else none
  | none => none

/-- Ports take what they can from the receive area. -/
def Block.rxPump : Nat → Block → Block
  | 0, b => b
  | n + 1, b =>
    let b := b.rxTake
    match (List.range 16).findSome? fun r => (b.rxNext r).map fun x => (r, x) with
    | some (r, x, p) => (b.rxPacket r x p).rxPump n
    | none => b

/-- Enough rounds to empty the receive area, with one more round for a packet that a port failed at. -/
def Block.rxRun (b : Block) : Block := b.rxPump (2 * b.fk.flume.rxHeld.length + 16)

/-- A packet of a flow of this node's is discarded, and counted unless the port has been disabled, which counts every packet
(R370, R376). -/
def Block.rxRefuse (b : Block) (flow : Nat) : Block := (b.ackTo flow 1).guard (!b.fk.flume.stopped) (·.unreach 1)

/-- A data packet of a flow that this node receives (R370, R374). -/
def Block.rxData (b : Block) (p : Packet) : Block :=
  match b.rxDeck? p.flow with
  | none => b
  | some x =>
    if x.detached then b
    else if x.dropped then b.rxRefuse p.flow
    else (b.setFlume fun f => { f with rxHeld := f.rxHeld ++ [(p.flow, p)] }).rxRun

/-- What earlier decks of a flow have left behind goes (R374). -/
def Block.rxStale (b : Block) (flow : Nat) : Block :=
  b.setFlume fun f => { f with opens := f.opens.filter fun x => !(x.flow == flow && x.dropped) }

/-- An OPEN names this node (R365, R370). -/
def Block.rxOpen (b : Block) (p : Packet) : Block :=
  let x : RxDeck :=
    { flow := p.about, port := p.consumer, src := p.src, chan := p.chan, deck := p.deck, epoch := BitVec.ofNat 8 p.epoch,
      last := p.dst == b.flNode, taken := 0, written := 0, dropped := b.fk.flume.stopped || !b.rxpEn p.consumer, detached := false,
      ended := none, recorded := false, cursor := 0, need := none, fail := none }
  ((b.rxStale p.about).setFlume fun f => { f with opens := f.opens ++ [x] }).rxRun

/-- The end of a deck with a status, where no DECK_END came (Table 13.4). -/
def RxDeck.endOf (x : RxDeck) (st gap : Nat) : RxEnd :=
  { status := st, len := 0, gap := gap, deck := x.deck, epoch := x.epoch, info := none }

/-- Packets of a flow in the receive area are discarded. -/
def Block.rxForget (b : Block) (flow : Nat) : Block :=
  b.setFlume fun f => { f with rxHeld := f.rxHeld.filter fun e => e.1 ≠ flow }

/-- A flow's deck ends (R371, R374, R375): a deck that was discarded leaves nothing behind. (DEDUCED, log entry 58) -/
def Block.rxEnd (b : Block) (flow : Nat) (e : RxDeck → RxEnd) : Block :=
  match b.rxDeck? flow with
  | none => b
  | some x =>
    if x.dropped then b.rxStale flow
    else (b.modRx flow fun x => { x with ended := some (e x) }).rxRun

/-- A DECK_END (R371, R373): DECK and EPOCH of the record are its own. -/
def Block.rxDeckEnd (b : Block) (p : Packet) : Block :=
  let e : RxEnd :=
    { status := stDone, len := p.length, gap := 0, deck := p.deck, epoch := BitVec.ofNat 8 p.epoch, info := none }
  match b.rxDeck? p.about with
  | none => b
  | some x =>
    (if x.detached then b else if x.dropped then b.rxRefuse p.about else b.ackTo p.about 1).rxEnd p.about fun _ => e

/-- A GAP for this node (R374): the deck ends, and what still comes for it is passed over. -/
def Block.rxGap (b : Block) (p : Packet) : Block :=
  match b.rxDeck? p.about with
  | none => b
  | some x =>
    let y := { x with dropped := true, detached := true, need := none, fail := none }
    ((b.rxForget p.about).rxEnd p.about fun x => x.endOf stDetached p.length).setFlume fun f => { f with opens := f.opens ++ [y] }

/-- This node takes a packet. A port that has been disabled counts every packet addressed to it, and records no notice (R376).
(DEDUCED, log entry 58) -/
def Block.takeOne (b : Block) (p : Packet) : Block :=
  let off := b.fk.flume.stopped
  let b := b.guard off (·.unreach 1)
  if !p.isCtl then b.rxData p
  else match p.kind with
    | 1 => b.rxOpen p
    | 2 => b.rxDeckEnd p
    | 3 => (b.rxForget p.about).rxEnd p.about fun x => x.endOf p.status 0
    | 4 => b.rxGap p
    | 5 => b.guard (!off && b.flNode == b.flMgr) (·.flBroadcast p.nkind p.node p.arg)
    | 6 => b.guard (!off) (·.recordNotice p.nseq p.nkind p.node p.arg)
    | _ => b

/-! The input buffers (R361, R368, R376). -/

/-- This node can take a packet now: it runs, or has been disabled and discards what is addressed to it, and the receive area has
room for a data packet that is not discarded (R358, R369, R376). -/
def Block.takesNow (b : Block) (p : Packet) : Bool :=
  (b.flOn || b.fk.flume.stopped) &&
    (p.isCtl || match b.rxDeck? p.flow with
      | some x => x.dropped || b.rxRoom (p.flow / 16)
      | none => true)

/-- The place of the first packet in an input buffer that this node can take, none of its flow before it. -/
def Block.takePlace (b : Block) : List HeldPacket → List Nat → Nat → Option Nat
  | [], _, _ => none
  | h :: hs, seen, i =>
    if h.take && !seen.contains h.pk.key && b.takesNow h.pk then some i
    else b.takePlace hs (if h.take then h.pk.key :: seen else seen) (i + 1)

/-- A packet in an input buffer has been taken, or has passed on: once it is neither to take nor to pass, its buffer is free
again, and the neighbour gets its credit back (R361). -/
def Block.heldDone (b : Block) (d i : Nat) (g : HeldPacket → HeldPacket) : Block :=
  match (b.link d).input[i]? with
  | none => b
  | some h =>
    let h := g h
    if h.take || h.pass then b.setLink d fun l => { l with input := l.input.set i h }
    else (b.setLink d fun l => { l with input := l.input.eraseIdx i }).llcPush d [0x01]

/-- One packet of an input buffer moves on, where one can. (DEDUCED, log entry 58) -/
def Block.drainStep (b : Block) (d : Nat) : Option Block :=
  let xs := (b.link d).input
  match b.takePlace xs [] 0 with
  | some i => (xs[i]?).map fun h => (b.heldDone d i fun h => { h with take := false }).takeOne h.pk
  | none => match b.passNext d with
    | some (i, cls) => (xs[i]?).map fun h =>
        (((b.heldDone d i fun h => { h with pass := false }).transmit (1 - d) h.pk).setTurn (1 - d) cls true)
    | none => none

/-- Input buffers move on as far as they can. -/
def Block.drainRun : Nat → Block → Block
  | 0, b => b
  | n + 1, b =>
    match b.drainStep 0 with
    | some b => b.drainRun n
    | none => match b.drainStep 1 with
      | some b => b.drainRun n
      | none => b

/-- Both input buffers move on as far as they can: each packet is taken once and passes once. -/
def Block.drainInputs (b : Block) : Block := b.drainRun (2 * ((b.link 0).input.length + (b.link 1).input.length))

/-- The ports and then the input buffers move on. -/
def Block.flSettle (b : Block) : Block := b.rxRun.drainInputs

/-- What the OPEN of a flow has taught this node, with what waits on the link before: whether it is the last receiver; none
where it receives nothing of the flow (R365). -/
def Block.learned (b : Block) (d key : Nat) : Option Bool :=
  match (b.link d).input.reverse.find? fun h => h.pk.isKind 1 && h.pk.about == key with
  | some h => if h.pk.names b.flNode then some (h.pk.dst == b.flNode) else none
  | none => (b.rxDeck? key).map (·.last)

/-- This node takes a packet that arrives on a link (R365, Table 13.3). -/
def Block.forMe (b : Block) (d : Nat) (p : Packet) : Bool :=
  if !p.isCtl then (b.learned d p.key).isSome
  else match p.kind with
    | 1 => p.names b.flNode
    | 2 | 3 => (b.learned d p.key).isSome
    | 4 => p.node == b.flNode
    | 5 => p.dst == b.flNode
    | 6 => true
    | _ => false

/-- A packet that arrives on a link passes on (R365, R368): data and DECK_END beyond every receiver but the flow's last, the other
control packets up to their destination. -/
def Block.passesOn (b : Block) (d : Nat) (p : Packet) : Bool :=
  let byFlow := match b.learned d p.key with
    | some last => !last
    | none => true
  if !p.isCtl then byFlow
  else match p.kind with
    | 2 => byFlow
    | 1 | 3 | 4 | 5 | 6 => p.dst ≠ b.flNode
    | _ => true

/-- What a header that passes teaches (R365, R367): an OPEN, the class of its flow; where it does not name this node, that nothing
of the flow's earlier decks is left here. -/
def Block.learnOpen (b : Block) (p : Packet) : Block :=
  b.guard (p.isKind 1) fun b =>
    (b.setFlume fun f => { f with classes := SMap.put f.classes p.about (!p.excess) }).guard (!p.names b.flNode) (·.rxStale p.about)

/-- A packet that passed on its replay is a transient fault (R361). -/
def Block.replayed (b : Block) (d : Nat) : Block :=
  b.guard ((b.link d).strikes == 1) fun b => (b.satAdd (FL_LINK d) 0 16 1).logTransient (unitId 0x6 (28 + d)) 6 0

/-- A packet arrives good on a link (R361): it is acknowledged on the link, and takes an input buffer until it is taken and has
passed on; a control packet whose CRC fails is discarded and counted (R365), and one that is neither for this node nor for a node
beyond it leaves nothing. -/
def Block.arrive (b : Block) (d : Nat) (p : Packet) : Block :=
  b.guard (d < 2 && b.linkUp d && (b.link d).input.length < 32) fun b =>
    let b := ((b.replayed d).tally 0x04 d none 256).llcPush d [0x40, (b.link d).seqIn]
    let b := b.setLink d fun l => { l with seqIn := (l.seqIn + 1) % 64, strikes := 0 }
    if p.isCtl && !p.crcOk then (b.llcPush d [0x01]).setFlume fun f => { f with badCtl := f.badCtl + 1 }
    else
      let h : HeldPacket := { pk := p, take := b.forMe d p, pass := b.passesOn d p }
      let b := b.learnOpen p
      if h.take || h.pass then (b.setLink d fun l => { l with input := l.input ++ [h] }).drainInputs else b.llcPush d [0x01]

/-- A packet of a row: its kind is the row's, and this node takes it or must discard it. -/
def Block.rowPacket (b : Block) (d : Nat) (p : Packet) (k : Nat) : Bool := p.isKind k && (b.forMe d p || !p.crcOk)

/-- FLUME_DATA_PACKET (R370). -/
def execFlumeDataPacket (d : Nat) (pk : Packet) (s : State) : Host.Outcome State Fault Refusal :=
  s.upd fun b => b.whenLive fun b => b.guard (!pk.isCtl && b.forMe d pk) (·.arrive d pk)
/-- FLUME_OPEN (R365). -/
def execFlumeOpen (d : Nat) (pk : Packet) (s : State) : Host.Outcome State Fault Refusal :=
  s.upd fun b => b.whenLive fun b => b.guard (b.rowPacket d pk 1) (·.arrive d pk)
/-- FLUME_DECK_END (R371, R373). -/
def execFlumeDeckEnd (d : Nat) (pk : Packet) (s : State) : Host.Outcome State Fault Refusal :=
  s.upd fun b => b.whenLive fun b => b.guard (b.rowPacket d pk 2) (·.arrive d pk)
/-- FLUME_ABORT (R375). -/
def execFlumeAbort (d : Nat) (pk : Packet) (s : State) : Host.Outcome State Fault Refusal :=
  s.upd fun b => b.whenLive fun b => b.guard (b.rowPacket d pk 3) (·.arrive d pk)
/-- FLUME_GAP (R374): this node is detached. -/
def execFlumeGap (d : Nat) (pk : Packet) (s : State) : Host.Outcome State Fault Refusal :=
  s.upd fun b => b.whenLive fun b => b.guard (b.rowPacket d pk 4) (·.arrive d pk)
/-- FLUME_REPORT (R377): the manager broadcasts it. -/
def execFlumeReport (d : Nat) (pk : Packet) (s : State) : Host.Outcome State Fault Refusal :=
  s.upd fun b => b.whenLive fun b => b.guard (b.rowPacket d pk 5) (·.arrive d pk)
/-- FLUME_NOTICE (R377). -/
def execFlumeNotice (d : Nat) (pk : Packet) (s : State) : Host.Outcome State Fault Refusal :=
  s.upd fun b => b.whenLive fun b => b.guard (b.rowPacket d pk 6) (·.arrive d pk)
/-- FLUME_FORWARD (R368): a passing packet goes on. -/
def execFlumeForward (d : Nat) (pk : Packet) (s : State) : Host.Outcome State Fault Refusal :=
  s.upd fun b => b.whenLive fun b => b.guard (!b.forMe d pk) (·.arrive d pk)

/-! Receive records (R371, Table 13.4). -/

/-- The record of an ended deck. -/
def RxDeck.record (x : RxDeck) (e : RxEnd) : BitVec 512 :=
  BitVec.ofNat 512 (e.deck + e.epoch.toNat * 2 ^ 24 + (x.src + x.chan * 2 ^ 8 + e.status * 2 ^ 16) * 2 ^ 32 +
    x.written % 2 ^ 32 * 2 ^ 64 + e.info.getD 0xFFFFFFFF % 2 ^ 32 * 2 ^ 96 + e.gap % 2 ^ 32 * 2 ^ 128)

/-- The bytes of a record in the order of their writes: 0x04 to 0x3F, then word 0x00 (R371). -/
def RxDeck.recordBytes (x : RxDeck) (e : RxEnd) (va : Nat) : List (Nat × Byte) :=
  let xs := bytesAt va (leBytes 64 (x.record e).toNat)
  xs.drop 4 ++ xs.take 4

/-- The port is done with its deck (R371). -/
def Block.rxDone (b : Block) (r : Nat) : Block :=
  let b := (b.satAdd (FL_RXP r 0x1C) 28 4 1).wf (FL_RXP r 0x1C) 0 24 (b.rf (FL_RXP r 0x1C) 0 24 + 1)
  ((b.causeFlume r).setFlume fun f => { f with rx := SMap.erase f.rx r }).flSettle

/-- A record is begun: a failed deck has the failure's status, and of a whole deck the info block's offset is known. It is 64·(1 +
m + s) bytes before the end, with m from 1 to 8 and s from 1 to 68 (R350), which no packet of the flow says: a free value.
(DEDUCED, log entry 58) -/
def Block.rxBegin (b : Block) (r : Nat) (x : RxDeck) (e : RxEnd) : Block :=
  let e := { e with status := x.fail.getD e.status }
  let off := if e.status = stDone then some (e.info.getD (e.len - 64 * (3 + b.fresh % 75))) else none
  (b.guard (e.status == stDone && e.info.isNone) Block.used).setRx r
    { x with ended := some { e with info := off }, fail := none, recorded := true, cursor := 0 }

/-- A record goes on from its cursor to the end of its part (R371). Aborted, the rest is not written; a byte that cannot be written
is left out. -/
def Block.rxWrite (b : Block) (r most : Nat) (x : RxDeck) (e : RxEnd) : Block :=
  if x.fail.isSome ∨ 64 ≤ x.cursor then b.rxDone r
  else
    let va := (b.pair (FL_RXP r 0x10) + x.deck % Nat.max 1 (b.rxpNbuf r) * 64) % 2 ^ 64
    let stop := if x.cursor < 60 then 60 else 64
    let o := b.oweRun (.rxPort r) most (b.mapSkip (b.rxpCtx r)) (((x.recordBytes e va).take stop).drop x.cursor)
    let x := { x with cursor := x.cursor + o.n }
    match o.halt with
    | some (.miss va _) => o.b.setRx r { x with need := some (b.rxNeed x va x.cursor 64) }
    | _ => o.b.setRx r x

/-- One step of a port's record (R371): it begins once every write of the deck is acknowledged, word 0x00 follows the acknowledged
rest, and the cause follows both. (DEDUCED, log entry 58) -/
def Block.rxRecord (b : Block) (r most : Nat) : Block :=
  match SMap.find b.fk.flume.rx r with
  | none => b
  | some x => match x.ended with
    | none => b
    | some e =>
      if x.need.isSome || b.isSusp (.rxPort r) || b.fk.flume.rxHeld.any (fun h => h.1 == x.flow) || !b.acked (· == .rxPort r) then b
      else if x.recorded then b.rxWrite r most x e
      else b.rxBegin r x e

/-- A write of a port's deck has failed for good: the rest of the deck is not written, and its record says so (R370, Table 13.4). A
write of the record is not made, and the record goes on, as R350 has it of an info block. (DEDUCED, log entry 58) -/
def Block.rxFails (b : Block) (r st : Nat) : Block :=
  match SMap.find b.fk.flume.rx r with
  | some x => b.guard (!x.recorded) (·.failWho (.rxPort r) st)
  | none => b

/-- RX_RECORD_WRITE (R371): the record's next part. -/
def execRxRecordWrite (r most : Nat) (s : State) : Host.Outcome State Fault Refusal :=
  s.upd fun b => b.whenLive fun b => b.guard (r < 16) fun b => (b.rxRun.rxRecord r most).drainInputs

/-- An FL_RXP_REL write (R371, Table 13.6). -/
def Block.rxRelease (b : Block) (r : Nat) (data : Word) : Block :=
  (b.wf (FL_RXP r 0x1C) 28 4 (b.rxpFull r - bits data 0 4)).flSettle

/-- FL_RXP_REL (R371). -/
def execFlRxpRel (r : Nat) (data : Word) (s : State) : Host.Outcome State Fault Refusal :=
  s.upd fun b => b.guard (r < 16) fun b => b.portWrite (FL_RXP r 0x18) data (·.rxRelease r data)

/-- A port that is no longer enabled refuses its decks (R370): those announced, and the one that it takes, which gets no record;
their packets are acknowledged and discarded. (DEDUCED, log entry 58) -/
def Block.rxpOff (b : Block) (r : Nat) : Block :=
  let hit := fun (x : RxDeck) => x.port == r && x.ended.isNone
  let gone := match SMap.find b.fk.flume.rx r with
    | some x => if hit x then [{ x with dropped := true, need := none, fail := none }] else []
    | none => []
  let b := b.setFlume fun f =>
    { f with rx := if gone.isEmpty then f.rx else SMap.erase f.rx r
             opens := gone ++ f.opens.map fun x => if hit x then { x with dropped := true } else x }
  let mine := fun (e : Nat × Packet) => b.fk.flume.opens.any fun x => x.flow == e.1 && x.dropped && x.port == r
  let b := b.each (b.fk.flume.rxHeld.filter mine) fun b e => b.rxRefuse e.1
  (b.setFlume fun f => { f with rxHeld := f.rxHeld.filter fun e => !mine e }).drainInputs

/-- A write of FL_RXP_CFG (R370, Table 13.6). -/
def Block.rxpCfg (b : Block) (r : Nat) (data : Word) : Block :=
  let was := b.rxpEn r
  let b := b.writeReg (FL_RXP r 0x00) data
  if was && !b.rxpEn r then b.rxpOff r else b.flSettle

/-! Training (R363). -/

/-- A link starts to train; RETRAINS counts since the last reset of the port's registers (R379). (DEDUCED, log entry 59) -/
def Block.retrain (b : Block) (d : Nat) : Block :=
  if b.linkThere d && !b.bypassed then
    ((b.setLink d fun l => { l with training := true, trained := false, strikes := 0 }).satAdd (FL_LINK d) 16 8 1).causeFlume 17
  else b

/-- The node numbers that a trained partner skips (NODE_LEFT). (DEDUCED, log entry 59) -/
def Block.skipped (b : Block) (d partner : Nat) : List Nat :=
  (List.range b.flSize).filter fun k => 1 ≤ b.hops d k && b.hops d k < b.hops d partner

/-- Spare wires left in the two directions of a link (Tables 1.9 and 1.10): wires brought in, or a third one that finds
them spent, are reported. -/
def Block.spareWires (b : Block) (d badOut badIn : Nat) : Block :=
  let lo := if d = 0 then 20 else 16
  let more := 2 - badOut < b.rf SPR_INVENTORY (lo + 2) 2 || 2 - badIn < b.rf SPR_INVENTORY lo 2
  let b := (b.wf SPR_INVENTORY (lo + 2) 2 (2 - badOut)).wf SPR_INVENTORY lo 2 (2 - badIn)
  (b.guard more (·.causeFault 2)).guard (2 < badOut || 2 < badIn) (·.causeFault 3)

/-- Both links are up for the first time since the node rejoined: it reports NODE_JOINED (R378). A node that FORCE alone
closed and opened again, with FL_CFG.EN at 1 throughout, sends none. (DESIGN CHOICE, log entry 82) -/
def Block.joinIfUp (b : Block) : Block :=
  if b.flOn && !b.fk.flume.joined && b.linkUp 0 && b.linkUp 1 then
    (b.setFlume fun f => { f with joined := true }).flEvent 4 b.flNode 0
  else b

/-- ABORT packets that no link will take are dropped: no route remains for them (R375). -/
def Block.dropAborts (b : Block) (d : Nat) : Block :=
  b.setFlume fun f => { f with aborts := f.aborts.filter fun e => e.1 ≠ d }

/-- EN falls once the last ABORT of a disabled port has gone (R376). (DEDUCED, log entry 59) -/
def Block.disableDone (b : Block) : Block :=
  if b.fk.flume.disabling && b.fk.flume.aborts.isEmpty then
    (b.setFlume fun f => { f with disabling := false }).wf FL_CFG 31 1 0
  else b

/-- A direction of the link has a third failing wire: the link is down (R363, Table 1.9). -/
def Block.trainFails (b : Block) (d : Nat) : Block :=
  let b := (b.setLink d fun l => { l with training := false, trained := false, failed := true }).causeFlume 17
  (((b.abortFlows stLasting fun x => x.dir == d).flEvent 1 b.flNode d).dropAborts d).disableDone

/-- Training ends (R363): up to 2 failing wires in each direction are replaced; a third one leaves the link down. The exchange
restates the credits: the partner has 32 input buffers, `held` packets in them, and the replay copies still to come (R361).
(DEDUCED, log entry 59) -/
def Block.trained (b : Block) (d badOut badIn partner held : Nat) : Block :=
  let b := b.spareWires d badOut badIn
  if 2 < badOut ∨ 2 < badIn then b.trainFails d
  else
    let b := (b.setLink d fun l =>
      { l with training := false, trained := true, failed := false, credits := 32 - held - l.replay.length }).wf
        (FL_LINK d) 26 4 partner
    let b := ((b.causeFlume 17).setFlume fun f => { f with left := f.left.filter (· ≠ partner) }).flEvent 2 b.flNode d
    ((b.each (b.skipped d partner) fun b k => b.flEvent 3 k 0).joinIfUp).drainInputs

/-- LINK_TRAIN (R363). -/
def execLinkTrain (d : Nat) (s : State) : Host.Outcome State Fault Refusal :=
  s.upd fun b => b.whenLive fun b => b.guard (d < 2 && !(b.link d).training) fun b => b.retrain d
/-- LINK_TRAINED (R363): the partner's node in the low 4 bits, the packets in its input buffers above them. -/
def execLinkTrained (d badOut badIn partner : Nat) (s : State) : Host.Outcome State Fault Refusal :=
  s.upd fun b => b.whenLive fun b =>
    b.guard (d < 2 && (b.link d).training && !b.bypassed && b.pins.fclkOn) fun b => b.trained d badOut badIn (partner % 16) (partner / 16)
/-- LLC_SILENCE_TIMEOUT (R363). -/
def execLlcSilenceTimeout (d : Nat) (s : State) : Host.Outcome State Fault Refusal :=
  s.upd fun b => b.whenLive fun b => b.guard (d < 2 && b.linkUp d) fun b => b.retrain d

/-- The first byte is a code of Table 13.2. -/
def llcKnown (v : Nat) : Bool := v ≤ 0x20 || v == 0x40 || v == 0x41 || v == 0x80

/-- LLC_LINK_ERROR (Table 13.2): another code makes the link retrain. -/
def execLlcLinkError (d v : Nat) (s : State) : Host.Outcome State Fault Refusal :=
  s.upd fun b => b.whenLive fun b => b.guard (d < 2 && b.linkUp d && !llcKnown v) fun b => b.retrain d

/-! The link layer (R361). -/

/-- The unit identity of a link's end (Table 15.3). -/
def linkUnit (d : Nat) : Nat := unitId 0x6 (28 + d)

/-- A parity error (R361): the packet is asked for again; a packet that fails twice makes the link retrain. -/
def Block.parityError (b : Block) (d : Nat) : Block :=
  if (b.link d).strikes = 0 then
    (b.setLink d fun l => { l with strikes := 1 }).llcPush d [0x41, (b.link d).seqIn]
  else (b.logLasting (linkUnit d) 0 6 0).retrain d

/-- LINK_PARITY_ERROR (R361). -/
def execLinkParityError (d : Nat) (s : State) : Host.Outcome State Fault Refusal :=
  s.upd fun b => b.whenLive fun b => b.guard (d < 2 && b.linkUp d) fun b => b.parityError d

/-- LLC_CREDIT_RETURN (R361). -/
def execLlcCreditReturn (d v : Nat) (s : State) : Host.Outcome State Fault Refusal :=
  s.upd fun b => b.whenLive fun b => b.guard (d < 2 && b.linkUp d && 1 ≤ v && v ≤ 0x20) fun b =>
    (b.setLink d fun l => { l with credits := min 32 (l.credits + v) }).drainInputs

/-- LLC_LINK_ACK (R361): replay copies up to the acknowledged packet are released. -/
def execLlcLinkAck (d v : Nat) (s : State) : Host.Outcome State Fault Refusal :=
  s.upd fun b => b.whenLive fun b => b.guard (d < 2 && b.linkUp d) fun b =>
    b.setLink d fun l => { l with replay := l.replay.filter fun e => 32 ≤ (v % 64 + 64 - e.1) % 64 }

/-- The replay exchange (R361): packets from sequence `v` on are sent again, and the credits are restated with `held` packets in
the receiver's input buffers. -/
def Link.replayFrom (l : Link) (v held : Nat) : Link :=
  let again := l.replay.filter fun e => (e.1 + 64 - v % 64) % 64 < 32
  { l with replay := again, credits := 32 - held - again.length }

/-- LLC_REPLAY_REQUEST (R361): the sequence in the low 6 bits, the packets in the receiver's input buffers above them. -/
def execLlcReplayRequest (d v : Nat) (s : State) : Host.Outcome State Fault Refusal :=
  s.upd fun b => b.whenLive fun b => b.guard (d < 2 && b.linkUp d) fun b =>
    (b.setLink d fun l => l.replayFrom v (v / 64)).drainInputs

/-- Acknowledged packets of an own flow. -/
def Block.flowAcked (b : Block) (n v node : Nat) : Block :=
  match b.flow? n with
  | none => b
  | some x =>
    if x.receivers.contains node then
      (b.setFlow n { x with acked := SMap.set zeroNat x.acked node (min x.sent (x.ackedBy node + v)) }).freeIfDone n
    else b

/-- A delivery acknowledgement goes on, on the link that leads to its flow's source (R361). -/
def Block.relayAck (b : Block) (flow v : Nat) : Block :=
  match b.dirTo (flow / 16) with
  | some e => b.llcPush e [0x80, flow, v]
  | none => b

/-- LLC_DELIVERY_ACK (R361, R373): at the source it releases packets; elsewhere it is relayed. -/
def execLlcDeliveryAck (d flow v node : Nat) (s : State) : Host.Outcome State Fault Refusal :=
  s.upd fun b => b.whenLive fun b => b.guard (d < 2 && b.linkUp d && 1 ≤ v && v ≤ 255 && b.flOn) fun b =>
    if flow / 16 = b.flNode then b.flowAcked (flow % 16) v node else b.relayAck flow v

/-- FLOW_ACK_TIMEOUT (R375). -/
def execFlowAckTimeout (n : Nat) (s : State) : Host.Outcome State Fault Refusal :=
  s.upd fun b => b.whenLive fun b =>
    match b.flow? n with
    | some x => b.guard (0 < x.inUse) fun b => b.abortFlow n stLasting
    | none => b

/-! Packets of this node. -/

/-- The lag window of a multicast flow (R374): LAG, and below the allowance of each of its receivers.
(DEDUCED, log entry 57) -/
def Block.lagWindow (b : Block) (x : Flow) : Nat :=
  x.receivers.foldl (fun w r => min w (b.allow r - 1)) (Nat.max 1 (b.rf (FL_DKL x.chan) 0 11))

/-- A receiver that falls behind its window is detached (R374). (DEDUCED, log entry 57) -/
def Block.detach (b : Block) (n r : Nat) : Block :=
  match b.flow? n with
  | none => b
  | some x =>
    let g := ctlPacket b.flNode 4 r (b.flowId n) false (x.deck + x.epoch.toNat * 2 ^ 24) 0 x.sent (r * 2 ^ 8) 0
    ((b.setFlow n { x with receivers := x.receivers.filter (· ≠ r), gaps := x.gaps ++ [g] }).satAdd FL_ERR2 0 16 1).causeFlume 18

/-- Detach every receiver of a multicast flow whose lag exceeds the window. -/
def Block.detachAll (b : Block) (n : Nat) : Block :=
  match b.flow? n with
  | none => b
  | some x =>
    if x.multicast then b.each (x.receivers.filter fun r => b.lagWindow x < x.lag r) fun b r => b.detach n r else b

/-- The bucket after `cycles`, and after a packet of a class has gone (R367). -/
def Block.drawBucket (b : Block) (cycles : Nat) (reserved : Bool) : Block :=
  b.setFlume fun f => { f with bucket := b.bucketNow cycles - (if reserved then 16 else 0) }

/-- A packet of this node's own class leaves, and the passing packets of the class have the next turn. -/
def Block.sendOwn (b : Block) (cycles d : Nat) (reserved : Bool) (p : Packet) : Block :=
  ((b.drawBucket cycles reserved).transmit d p).setTurn d (if reserved then 1 else 2) false

/-- The oldest REPORT or NOTICE goes, else the oldest ABORT whose class has its turn (R367). (DEDUCED, log entry 59) -/
def Block.sendNotice (b : Block) (cycles : Nat) : Block :=
  match b.fk.flume.notices.find? fun e => b.linkFree e.1 with
  | some e => (b.setFlume fun f => { f with notices := f.notices.erase e }).transmit e.1 e.2
  | none => match b.fk.flume.aborts.find? fun e => b.abortReady cycles e && b.turnOf cycles e.1 e.2.1 with
    | some e => ((b.setFlume fun f => { f with aborts := f.aborts.erase e }).sendOwn cycles e.1 e.2.1 e.2.2).disableDone
    | none => b

/-- An own flow sends its next packet. -/
def Block.sendFlow (b : Block) (n cycles : Nat) : Block :=
  match b.flow? n with
  | none => b
  | some x => match b.nextPacket n x with
    | none => b
    | some (p, y) => ((((b.setFlow n y).sendOwn cycles x.dir x.reserved p).detachAll n).freeIfDone n)

/-- FLUME_PACKET_SEND (R367): own flow `n`, or with `n` 15 the port's own reports, notices and aborts; `cycles` fclk
cycles have passed since the last packet. -/
def execFlumePacketSend (n cycles : Nat) (s : State) : Host.Outcome State Fault Refusal :=
  s.upd fun b => b.whenLive fun b =>
    if n = 15 then (b.sendNotice cycles).drainInputs
    else match b.flow? n with
      | some x => b.guard (b.flowReady cycles n && b.turnOf cycles x.dir x.reserved) fun b => (b.sendFlow n cycles).drainInputs
      | none => b

/-! The port's enable (R358, R376). -/

/-- Every deck at a port ends with HW_LASTING, and what the receive area holds is acknowledged and discarded; what still comes of
these decks is discarded too (R376). -/
def Block.rxStop (b : Block) : Block :=
  let b := b.each b.fk.flume.rxHeld fun b e => b.ackTo e.1 1
  b.setFlume fun f =>
    let open_ := (f.rx.filter fun e => e.2.ended.isNone).map fun e => { e.2 with dropped := true, need := none, fail := none }
    { f with rxHeld := []
             rx := SMap.mapVals f.rx fun _ x => if x.ended.isNone then { x with ended := some (x.endOf stLasting 0) } else x
             opens := (f.opens.map fun x => { x with dropped := true }) ++ open_ }

/-- An FL_CFG write (R358, R376). -/
def Block.flCfg (b : Block) (data : Word) : Block :=
  if b.fk.flume.disabling then b
  else if b.flOn then
    if bit data 31 then b
    else
      let b := (b.abortFlows stLasting fun _ => true).rxStop
      (b.setFlume fun f => { f with disabling := true, stopped := true, joined := false }).disableDone.drainInputs
  else if bit data 31 then
    if !(b.linkThere 0 && b.linkThere 1) then b
    else
      let b := (b.writeReg FL_CFG data).setFlume fun f => { f with stopped := false, joined := false, down := [], left := [] }
      ((b.retrain 0).retrain 1).flSettle
  else b.writeReg FL_CFG data

/-- FLUME_ENABLE (R358, R363). -/
def execFlumeEnable (data : Word) (s : State) : Host.Outcome State Fault Refusal :=
  s.upd fun b => b.portWrite FL_CFG data (·.flCfg data)
/-- FLUME_DISABLE (R376). -/
def execFlumeDisable (data : Word) (s : State) : Host.Outcome State Fault Refusal :=
  s.upd fun b => b.portWrite FL_CFG data (·.flCfg data)

end Sys2Proof.Machine
end

