-- ==== Sys2Proof/Machine/Landing.lean ====
section
/-! DEFINITION. Deck channels (12.5 to 12.9): placement, ordered delivery into memory or onto the flume (13.6), the deck boundary, stragglers and epochs. -/

namespace Sys2Proof.Machine

/-! Channels. -/

def Deck.slotCount (d : Deck) : Nat := bits d.slots 16 13
def Deck.win (d : Deck) : Nat := bits d.slots 0 13
def Deck.extra (d : Deck) : Nat := bits d.space 24 8
def Deck.compact (d : Deck) : Bool := bit d.ctrl 27
def Deck.fillwait (d : Deck) : Bool := bit d.ctrl 26
def Deck.target (d : Deck) : Bool := bit d.ctrl 25
def Deck.ctx (d : Deck) : Nat := bits d.ctrl 16 6
/-- One past the last slot index. -/
def Deck.last (d : Deck) : Nat := d.slotCount + d.extra

def Block.deck? (b : Block) (c : Nat) : Option Deck := SMap.find b.fk.decks c
def Block.setDeck (b : Block) (c : Nat) (d : Deck) : Block := b.setFk fun k => { k with decks := SMap.put k.decks c d }
def Block.modDeck (b : Block) (c : Nat) (g : Deck → Deck) : Block :=
  b.setFk fun k => { k with decks := SMap.modify k.decks c g }

def Block.dkHead (b : Block) (c : Nat) : Nat := b.rf (DK_POS c) 16 13
def Block.dkDeck (b : Block) (c : Nat) : Nat := b.rf (DK_DECK c) 0 24
def Block.dkInflight (b : Block) (c : Nat) : Nat := b.rf (DK_STAT c) 24 4

/-- The channel, the deck and the slot that a SLOT command names (R344, Table 5.12). -/
def Cmd.chan (c : Cmd) : Nat := bits c.y 0 6
def Cmd.deckNo (c : Cmd) : Nat := bits c.y 8 24
def Cmd.slotNo (c : Cmd) : Nat := c.x.toNat

/-- A SLOT command of a channel that waits in a park (R347), or whose copy is in progress (R348). -/
def Cmd.isSlot (c : Cmd) : Bool := c.op == .slotPlace || c.op == .slotVoid
def Cmd.parked (c : Cmd) : Bool := c.isSlot && c.active && c.cursor == 0
def Cmd.copying (c : Cmd) : Bool := c.isSlot && c.cursor == 1
/-- It has waited, in a park or in its queue behind a full one (R347). -/
def Cmd.waited (c : Cmd) : Bool := c.isSlot && c.scratch == [1]

/-- The window and the deck have a place for slot `i` (R349). -/
def Block.inWindow (b : Block) (c : Nat) (d : Deck) (i : Nat) : Bool :=
  d.isOpen && i < b.dkHead c + d.win && i < d.last

/-- The writes of a delivered slot are acknowledged: its line writes in memory, and on every flow that is still there the packets up
to its last byte (R349, R373). -/
def Block.sentAcked (b : Block) (c : Nat) (u : Sent) : Bool :=
  let open_ := fun (x : Retry) => x.req.agent == .landing c && u.serials.contains x.serial
  !(b.fk.owed.any open_) && !(b.fk.wrTags.any fun e => open_ { req := e.2.req, serial := e.2.serial }) && !(b.fk.retries.any open_) &&
    u.marks.all fun m => match b.flow? m.1 with
      | none => true
      | some x =>
        if x.chan ≠ c ∨ x.deck ≠ b.dkDeck c then true
        else if 256 ≤ m.1 then m.2 + x.out.length + 256 * (b.fk.flume.rxHeld.filter fun e => e.1 == m.1).length ≤ x.bytes
        else x.receivers.all fun r => cdiv m.2 256 ≤ x.ackedBy r

/-- Delivered slots whose places have not returned to the window ledger (R349). -/
def Block.unacked (b : Block) (c : Nat) (d : Deck) : List Sent := d.sent.filter fun u => !b.sentAcked c u

/-- WIN_USED: the places of the slots that have entered the window and are not delivered, and those of delivered slots whose writes
are not acknowledged (R349). (DEDUCED, log entry 53) -/
def Block.winUsed (b : Block) (c : Nat) : Nat :=
  match b.deck? c with
  | some d =>
    if b.deckEn c && d.isOpen then
      let head := b.dkHead c
      let hi := min (head + d.win) d.last
      let w := Nat.max 1 d.win
      let kept := ((b.unacked c d).map fun u => u.slot % w).eraseDups.filter fun p => hi ≤ head + (p + w - head % w) % w
      hi - head + kept.length
    else 0
  | none => 0

/-! The destination of one position. -/

/-- Storage dimension of the position (R345). -/
def posDim (d : Desc) : Nat := dPi d (dRank d - 1)

/-- The descriptor of one position: the position's extent is 1, and BASE lies at the position. -/
def posDesc (d : Desc) (p : Nat) : Desc :=
  let k := posDim d
  setBits (setBits d (0x80 + 32 * k) 32 1) 0 64 (addr64 ((dBase d : Int) + p * dStride d k))

/-- A slot's bytes: the bytes of D at one position, counted from the lowest to the highest that it occupies, whole planes in the
blocked form (R184, R345). -/
def slotBytes (d : Desc) : Nat :=
  let x := span (posDesc d 0)
  (x.2 - x.1 + 1).toNat

/-- The offset of a byte in a slot's place, which is laid out as D is (R348). -/
def slotOff (d : Desc) (t : TByte) : Nat :=
  let x := posDesc d 0
  (((t.addr x : Nat) : Int) - (span x).1).toNat

/-- SSTRIDE: a slot's bytes rounded up to 64. -/
def sstride (d : Desc) : Nat := cdiv (slotBytes d) 64 * 64

/-- The landing offset of a slot's place (R348). -/
def Deck.place (d : Deck) (i : Nat) : Nat := d.spaceBase + i % Nat.max 1 d.win * sstride d.desc

/-- D for deck n: BASE increased by (n mod DBUF) × DSTRIDE × 64 (R345). -/
def Deck.destOf (d : Deck) (n : Nat) : Desc :=
  withBase d.desc (BitVec.ofNat 64 (dBase d.desc + n % Nat.max 1 d.dbuf * d.dstride * 64))

/-! Placement (R346 to R348). -/

/-- What Table 12.6 decides for a SLOT command. -/
inductive SlotOut where
  | done (st : Nat)
  | wait
  | copy
  | void (st : Nat)
  deriving DecidableEq, Repr

/-- Row 8 of Table 12.6 is passed: TA is local and of D's type and view extents. -/
def sampleOk (d : Desc) (ta : Desc) : Bool :=
  dSpace ta == 1 && dType ta == dType d && (List.range (dRank d - 1)).all fun k => viewExt ta k == viewExt d k

/-- Table 12.6 from row 3 on. -/
def Block.slotRows (b : Block) (d : Deck) (c : Cmd) : SlotOut :=
  let i := c.slotNo
  let diff := sext 24 (c.deckNo + 2 ^ 24 - b.dkDeck c.chan)
  if d.last ≤ i then .done stMalformed
  else if diff < 0 then
    (if d.strag.contains (c.deckNo, i) then .done stStraggler
     else if d.surplusRec.any (fun e => e.1 == c.deckNo && e.2 ≤ i) then .done stDone else .done stMalformed)
  else if 1 < diff then .done stMalformed
  else if diff = 1 then .wait
  else
    if d.late.contains i then .done stStraggler
    else if d.surplus.any (· ≤ i) then .done stDone
    else if (SMap.find d.closed i).isSome || (d.isOpen && i < b.dkHead c.chan) then .done stMalformed
    else if !b.inWindow c.chan d i then .wait
    else if c.op = .slotVoid then .void c.form.imm.toNat
    else if sampleOk d.desc c.ta then .copy
    else .done stMalformed

/-- Table 12.6. (DEDUCED, log entry 53) -/
def Block.slotOut (b : Block) (c : Cmd) : SlotOut :=
  match b.deckEn c.chan, b.deck? c.chan with
  | true, some d => if c.epoch ≠ b.deckEpoch c.chan then .done stEpochStale else b.slotRows d c
  | _, some d => if d.downEpoch = some c.epoch then .done stTeardown else .done stMalformed
  | _, none => .done stMalformed

/-- A SLOT command ends; STALE is counted, and a matching straggler entry leaves the record (R354, R355). -/
def Block.slotEnds (b : Block) (id : Nat) (c : Cmd) (st : Nat) : Block :=
  let b := if st = stEpochStale then b.satAdd (DK_VOIDS c.chan) 0 16 1 else b
  let b := if st = stStraggler then
      b.modDeck c.chan fun d => { d with strag := d.strag.filter fun e => e ≠ (c.deckNo, c.slotNo) }
    else b
  b.finish id st

/-- A slot of the current deck is closed. (DEDUCED, log entry 53) -/
def Block.closeSlot (b : Block) (c i : Nat) (x : Slot) : Block := b.modDeck c fun d => { d with closed := SMap.put d.closed i x }

/-- Park entries of a stand in use (R347, ledger 161 to 168). -/
def Block.parkUsed (b : Block) (st : Nat) : Nat := SMap.count b.fk.cmds fun _ c => c.unit == .landing st && c.parked

/-- The stand of a SLOT command. -/
def Cmd.stand (c : Cmd) : Nat := standOf c.thread

/-- A SLOT waits: in its stand's park, or while that is full in its queue (R347). It is no longer timed. -/
def Block.slotWaits (b : Block) (id : Nat) (c : Cmd) : Block :=
  let c := { c with scratch := [1] }
  if c.active then b.setCmd id c
  else if b.parkUsed c.stand < 64 then
    let b := b.setCmd id { c with active := true }
    if b.parkUsed c.stand = 64 then b.causeMovement 6 else b
  else b.setCmd id c

/-- A SLOT command takes its row of Table 12.6. (DEDUCED, log entry 53) -/
def Block.slotStep (b : Block) (id : Nat) (c : Cmd) : Block :=
  match b.slotOut c with
  | .done st => b.slotEnds id c st
  | .wait => b.slotWaits id c
  | .copy => b.setCmd id { c with cursor := 1 }
  | .void st => (b.closeSlot c.chan c.slotNo (.voided st (some c.job))).slotEnds id c st

/-- An earlier SLOT of the stand has not been checked, or waits in the queue behind a full park. -/
def Block.slotBehind (b : Block) (id : Nat) (c : Cmd) : Bool :=
  b.fk.cmds.any fun e => e.1 < id && e.2.unit == c.unit && e.2.phase == .accepted && !e.2.active && e.2.cursor == 0

/-- The work of a SLOT row. -/
def slotWork (op : TOp) (id : Nat) (b : Block) : Block :=
  b.workOn id (fun c => c.op == op && !c.active && c.cursor == 0) fun c b =>
    b.guard (!b.slotBehind id c) fun b => b.slotStep id c

/-- SLOT.PLACE (R346). -/
def execSlotPlace (t : TStep) (s : State) : Host.Outcome State Fault Refusal :=
  s.upd (tensorRow specSlotPlace (some 0) (slotWork .slotPlace) t)
/-- SLOT.VOID (R346). -/
def execSlotVoid (t : TStep) (s : State) : Host.Outcome State Fault Refusal :=
  s.upd (tensorRow specSlotVoid (some 1) (slotWork .slotVoid) t)

/-- SLOT_PARK_RECHECK (R347). -/
def execSlotParkRecheck (id : Nat) (s : State) : Host.Outcome State Fault Refusal :=
  s.upd fun b => b.whenLive fun b => b.workOn id Cmd.parked fun c b => b.slotStep id c

/-- The byte of a placed sample: TA's element at the same view index, the position apart (R348). -/
def Block.sampleByte (b : Block) (c : Cmd) (d : Desc) (x : TByte) : Except Halt Byte :=
  if !inStore d x.s then .ok (BitVec.ofNat 8 (fillByte d x))
  else do
    let u := (viewIx d x.s).take (dRank d - 1) ++ List.replicate (7 - dRank d) 0
    let sb ← b.sourceByte c c.ta x.part u
    return BitVec.ofNat 8 (takeByte c.ta d x.part u (padElem d x.s) sb)

/-- The bytes of a placed sample, in D's storage order for one position. (DEDUCED, log entry 53) -/
def Block.sample (b : Block) (c : Cmd) (d : Desc) : List TByte → Except Halt (List Byte)
  | [] => .ok []
  | x :: xs => do
    let v ← b.sampleByte c d x
    let vs ← b.sample c d xs
    return v :: vs

/-- The sample times of a channel keep the last 64 (R353). -/
def keepTimes (ts : List Nat) : List Nat := ts.drop (ts.length - 64)

/-- A copy is complete (R348): the slot is placed, and timed unless it waited (12.8). -/
def Block.copyDone (b : Block) (id ticks : Nat) (c : Cmd) : Block :=
  match b.slotOut c, b.deck? c.chan with
  | .copy, some d =>
    let ts := travAll (posDesc d.desc 0)
    match b.sample c d.desc ts with
    | .ok xs =>
      let st := c.form.imm.toNat
      let b := b.each (ts.zip xs) fun b e => b.lwrite (d.place c.slotNo + slotOff d.desc e.1) [e.2]
      let b := b.closeSlot c.chan c.slotNo (.placed st (some c.job))
      let b := if c.waited then b else b.modDeck c.chan fun d => { d with times := keepTimes (d.times ++ [ticks]) }
      b.slotEnds id c st
    | .error _ => b.slotEnds id c stProtect
  | .done st, _ => b.slotEnds id c st
  | _, _ => b

/-- SLOT_COPY_DONE (R348): `ticks` is the sample time of 12.8. -/
def execSlotCopyDone (id ticks : Nat) (s : State) : Host.Outcome State Fault Refusal :=
  s.upd fun b => b.whenLive fun b => b.workOn id (fun c => c.copying) fun c b => b.copyDone id ticks c

/-! Delivery into memory (R349, R352). -/

/-- The job of a closed slot. -/
def Slot.job : Slot → Option Nat
  | .placed _ j => j
  | .voided _ j => j
def Slot.status : Slot → Nat
  | .placed st _ => st
  | .voided st _ => st
def Slot.isPlaced : Slot → Bool
  | .placed _ _ => true
  | .voided _ _ => false

/-- What a delivery waits for (R352). -/
def Block.deckNeed (b : Block) (d : Deck) (job : Option Nat) (va : Nat) (write : Bool) (cursor total : Nat) : Need :=
  let who : Option (Nat × Nat) := match job with
    | some j => (b.findJob j).map fun (x : Job) => (x.sq, entTag x.entry)
    | none => none
  { va := va, write := write, ctx := d.ctx, agent := 2, unit := 0, sq := (who.map (·.1)).getD 0x3F,
    tag := (who.map (·.2)).getD 0xFFFF, cursor := cursor, total := total }

/-- The byte of a position: the sample's from its place, or D's FILL (R349). -/
def Block.posByte (b : Block) (d x : Desc) (src : Option Nat) (t : TByte) : Byte :=
  match src with
  | some a => b.lget (a + slotOff d t)
  | none => BitVec.ofNat 8 (fillByte x t)

/-- The bytes of one position in D's storage order, with their addresses. -/
def Block.posWrites (b : Block) (d : Deck) (n p : Nat) (src : Option Nat) : List (Nat × Byte) :=
  let x := posDesc (d.destOf n) p
  (travAll x).map fun t => (t.addr x, b.posByte d.desc x src t)

/-- The result of writing a position: it is written, it waits, or it ended with a failure. -/
inductive PosEnd where
  | written
  | waits
  | failed (st : Nat)
  deriving DecidableEq, Repr

/-- The delivery stands at a cursor, with the line writes made so far. -/
def Block.sendingTo (b : Block) (c k : Nat) (serials : List Nat) (need : Option Need) (fail : Option Nat) : Block :=
  b.modDeck c fun d => { d with cursor := k, sending := serials.foldl (fun xs x => addSerial xs (some x)) d.sending
                                need := need, fail := fail }

/-- The rest of a position that has failed takes FILL where it can be written (R192, R352). -/
def Block.fillRest (b : Block) (c most : Nat) (d : Deck) (p st : Nat) (o : Owing) : Block × PosEnd :=
  let k := d.cursor + o.n
  let f := o.b.oweRun (.landing c) most (o.b.mapNow d.ctx) ((o.b.posWrites d (b.dkDeck c) p none).drop k)
  let b := f.b.sendingTo c (k + f.n) (o.serials ++ f.serials) none (some st)
  (b, if f.halt.isSome then .waits else .failed st)

/-- Write a position from the deck's cursor on (R349, R352): line by line, as the write credits of the landing allow. -/
def Block.writePos (b : Block) (c most : Nat) (d : Deck) (p : Nat) (src : Option Nat) (job : Option Nat) : Block × PosEnd :=
  match d.fail with
  | some st => b.fillRest c most d p st { b := b, n := 0, serials := [], halt := none }
  | none =>
    let o := b.oweRun (.landing c) most (b.mapMust d.ctx) ((b.posWrites d (b.dkDeck c) p src).drop d.cursor)
    let k := d.cursor + o.n
    match o.halt with
    | none => (o.b.sendingTo c k o.serials none none, .written)
    | some (.miss va _) =>
      (o.b.sendingTo c k o.serials (some (b.deckNeed d job va true k (travLen (posDesc d.desc 0)))) none, .waits)
    | some (.stop st) => b.fillRest c most d p st o
    | some _ => (o.b.sendingTo c k o.serials none none, .waits)

/-! Delivery onto the flume (R372, R373). -/

/-- Bytes join a flow of this deck; a flow that has been aborted takes none. (DEDUCED, log entry 57) -/
def Block.feedFlow (b : Block) (c n : Nat) (xs : List Byte) : Block :=
  match b.flow? n with
  | some x =>
    if x.chan = c ∧ x.deck = b.dkDeck c then b.setFlow n { x with out := x.out ++ xs, bytes := x.bytes + xs.length } else b
  | none => b

/-- A deck of this node's own goes on into its receive port: packets as a flow would carry them (R372); a deck that the port refuses
is discarded and counted (R370). -/
def Block.feedLocal (b : Block) : Nat → Nat → Block
  | 0, _ => b
  | k + 1, n =>
    match b.flow? n with
    | none => b
    | some x =>
      if 256 ≤ x.out.length ∨ ((x.flush ∨ x.complete) ∧ x.out ≠ []) then
        let xs := x.out.take 256
        let p : Packet :=
          { tag := BitVec.ofNat 12 ((cdiv xs.length 64 - 1) * 2 ^ 8), data := BitVec.ofNat 2048 (leNat xs) }
        let b := b.setFlow n { x with out := x.out.drop 256 }
        let refused := match b.rxDeck? n with
          | some y => y.dropped
          | none => true
        (if refused then b.unreach 1 else b.setFlume fun f => { f with rxHeld := f.rxHeld ++ [(n, p)] }).feedLocal k n
      else if x.complete then
        (b.dropFlow n).rxEnd n fun _ =>
          { status := stDone, len := x.bytes, gap := 0, deck := x.deck, epoch := x.epoch, info := some x.infoAt }
      else b

/-- Feed every deck that goes into this node's own ports. -/
def Block.feedLocals (b : Block) : Block :=
  (b.each ((b.fk.flume.flows.filter fun e => 256 ≤ e.1).map fun e => (e.1, e.2.out.length)) fun b e =>
    b.feedLocal (e.2 / 256 + 2) e.1).rxRun

/-- The nodes of a mask. -/
def nodesOf (m : Nat) : List Nat := (List.range 16).filter fun r => m / 2 ^ r % 2 = 1

/-- A flow for receivers in one direction (R364, R367, R374). -/
def Block.newFlow (b : Block) (c d consumer : Nat) (receivers : List Nat) : Flow :=
  { chan := c, east := d == 0,
    reserved := !b.rb (FL_DKD c) 7 && receivers.all fun r => b.hops d r ≤ 4, receivers := receivers,
    multicast := 1 < receivers.length, consumer := consumer, deck := b.dkDeck c, epoch := b.deckEpoch c, opened := false,
    sent := 0, acked := [], gaps := [], out := [], bytes := 0, flush := false, complete := false, ended := false, infoAt := 0 }

/-- Flows that the deck has taken and not given to a destination pair. -/
def Deck.spareFlow (d : Deck) : Option Nat := d.flows.find? fun n => d.pairs.all fun p => p.flow ≠ some n

/-- The deck's own receive port is a pair without a flow of the ring (R372). -/
def Block.openLocal (b : Block) (c consumer : Nat) : Block :=
  let n := localFlow c consumer
  let x : RxDeck :=
    { flow := n, port := consumer, src := b.flNode, chan := c, deck := b.dkDeck c, epoch := b.deckEpoch c, last := true,
      taken := 0, written := 0, dropped := b.fk.flume.stopped || !b.flOn || !b.rxpEn consumer, detached := false, ended := none
      recorded := false, cursor := 0, need := none, fail := none }
  let b := ((b.rxStale n).setFlume fun f => { f with opens := f.opens ++ [x] }).setFlow n { b.newFlow c 0 consumer [] with opened := true }
  b.modDeck c fun d => { d with pairs := d.pairs ++ [{ nodes := 2 ^ b.flNode, consumer := consumer, flow := some n }] }

/-- A destination pair takes one of the deck's flows; beyond FLOWS it is masked and counted (R372). -/
def Block.openPair (b : Block) (c : Nat) (nodes : List Nat) (consumer : Nat) : Block :=
  let mask := (nodes.map fun r => 2 ^ r).sum
  match (b.deck? c).bind Deck.spareFlow, (nodes.head?.bind fun r => b.dirTo r) with
  | some n, some d =>
    (b.setFlow n (b.newFlow c d consumer nodes)).modDeck c fun x =>
      { x with pairs := x.pairs ++ [{ nodes := mask, consumer := consumer, flow := some n }] }
  | _, _ =>
    (b.satAdd FL_ERR 16 16 1).modDeck c fun x =>
      { x with pairs := x.pairs ++ [{ nodes := mask, consumer := consumer, flow := none }] }

/-- A node of the ring that some route reaches. -/
def Block.reachable (b : Block) (r : Nat) : Bool := r < b.flSize && (r == b.flNode || (b.dirTo r).isSome)

/-- Bytes go to one destination pair of the deck. -/
def Block.feedPair (b : Block) (c : Nat) (p : Pair) (xs : List Byte) : Block :=
  match p.flow with
  | some n => b.feedFlow c n xs
  | none => b.tally 0x0A 0x3F none xs.length

/-- A supertile goes to the node and consumer of its owner entry (R372). -/
def Block.feedOwner (b : Block) (c entry : Nat) (xs : List Byte) : Block :=
  let node := entry / 256
  let consumer := entry % 256
  if !b.reachable node then b.unreach 1
  else
    let find := fun (b : Block) => (b.deck? c).bind fun d => d.pairs.find? fun p => p.nodes == 2 ^ node && p.consumer == consumer
    let b := if (find b).isSome then b
      else if node = b.flNode then b.openLocal c consumer else b.openPair c [node] consumer
    match find b with
    | some p => b.feedPair c p xs
    | none => b

/-- The receivers of FL_DKD that no route reaches. -/
def Block.lostNodes (b : Block) (c : Nat) : Nat :=
  ((nodesOf (b.rf (FL_DKD c) 16 16)).filter fun r => !b.reachable r).length

/-- The supertiles of an operand: 64 rows of 256 elements in each plane, in the descriptor form too. (DEDUCED, log entry 57) -/
def superCount (d : Desc) : Nat := (planes d).length * (superRows d * superCols d)

/-- The supertiles of one position in storage order: the address of the owner entry, and the bytes. -/
def superGroups (d : Desc) (p : Nat) : List (Nat × List TByte) :=
  let x := posDesc d p
  (planes x).flatMap fun pl => (List.range (superRows x * superCols x)).filterMap fun q =>
    let ts := (tilesOf x).filter fun rc => rc.1 / 64 * superCols x + rc.2 / 256 == q
    match ts with
    | [] => none
    | rc :: _ =>
      let s := (rc.2 :: rc.1 :: pl).set (posDim d) p
      some (ownerAddr d s, ts.flatMap fun rc => tileTBytes (dType x) pl rc.1 rc.2)

/-- Feed supertiles from the deck's cursor on; a missing translation of an owner entry halts (R183). -/
def Block.feedSupers (b : Block) (c : Nat) (d : Deck) (x : Desc) (src : Option Nat) (k : Nat) :
    List (Nat × List TByte) → Block × Nat × Option Nat
  | [] => (b, k, none)
  | g :: gs =>
    if k + g.2.length ≤ d.cursor then b.feedSupers c d x src (k + g.2.length) gs
    else if g.1 < 2 ^ 48 then
      match b.xlate d.ctx g.1 false with
      | none => (b, k, some g.1)
      | some pa =>
        let xs := g.2.map (b.posByte d.desc x src)
        (b.feedOwner c (b.xnat pa 2) xs).feedSupers c d x src (k + g.2.length) gs
    else (b, k, some g.1)

/-- Deliver a position onto the flume: to the owners of its supertiles, or whole to every pair of the deck; the supertiles of
each receiver that no route reaches are counted (R366, R372). -/
def Block.feedPos (b : Block) (c : Nat) (d : Deck) (p : Nat) (src job : Option Nat) : Block × PosEnd :=
  let n := b.dkDeck c
  let x := posDesc (d.destOf n) p
  match d.fail with
  | some st => (b, .failed st)
  | none =>
    if dOwner d.desc = 0 then
      let xs := (travAll x).map (b.posByte d.desc x src)
      (((b.each d.pairs fun b q => b.feedPair c q xs).unreach (b.lostNodes c * superCount x)).feedLocals, .written)
    else
      let w := b.feedSupers c d x src 0 (superGroups (d.destOf n) p)
      match w.2.2 with
      | none => (w.1.feedLocals, .written)
      | some va =>
        if va < 2 ^ 48 then
          (w.1.modDeck c fun d => { d with cursor := w.2.1, need := some (b.deckNeed d job va false w.2.1 (travLen x)) }, .waits)
        else (w.1.feedLocals, .failed stProtect)

/-- FLOW_ACQUIRE (R372): the deck takes FLOWS flows at once; without an owner table the receivers of FL_DKD share one
flow in each direction. -/
def Block.acquire (b : Block) (c : Nat) (d : Deck) : Block :=
  let k := Nat.max 1 (b.rf (FL_DKD c) 0 4)
  if k ≤ b.freeFlows.length then
    let ns := b.freeFlows.take k
    let b := b.each ns fun b n => b.setFlow n (b.newFlow c 0 0 [])
    let b := b.modDeck c fun d => { d with flows := ns }
    if dOwner d.desc ≠ 0 then b
    else
      let rs := (nodesOf (b.rf (FL_DKD c) 16 16)).filter b.reachable
      let con := b.rf (FL_DKD c) 8 8
      let go := fun (dir : Nat) => rs.filter fun r => r ≠ b.flNode && b.dirTo r == some dir
      let b := if (go 0).isEmpty then b else b.openPair c (go 0) con
      let b := if (go 1).isEmpty then b else b.openPair c (go 1) con
      if rs.contains b.flNode then b.openLocal c con else b
  else b

/-! The head slot (R349 to R351). -/

/-- The deck has delivered its last slot, or its last position (R351). -/
def Block.deckEnds (b : Block) (c : Nat) (d : Deck) : Bool :=
  (d.compact && d.fillwait && d.pos == d.slotCount) || d.last ≤ b.dkHead c

/-- The channel's deliveries go on: enabled, a deck open, nothing suspended. -/
def Block.deckRuns (b : Block) (c : Nat) (d : Deck) : Bool :=
  b.deckEn c && d.isOpen && d.need.isNone && !b.isSusp (.deck c)

/-- Write a position into memory or onto the flume. (DEDUCED, log entry 54) -/
def Block.sendPos (b : Block) (c most : Nat) (d : Deck) (p : Nat) (src job : Option Nat) : Block × PosEnd :=
  if d.target then b.feedPos c d p src job else b.writePos c most d p src job

/-- How far each flow of the deck has come: its payload bytes. -/
def Block.flowMarks (b : Block) (c : Nat) (d : Deck) : List (Nat × Nat) :=
  if d.target then d.pairs.filterMap fun p => p.flow.bind fun n => (b.flow? n).bind fun x =>
    if x.chan = c ∧ x.deck = b.dkDeck c then some (n, x.bytes) else none
  else []

/-- The head slot is delivered: `st` is its status byte, `good` whether its position holds its sample; a compact deck whose last
position is written leaves the slots after it surplus (R351). -/
def Block.headDone (b : Block) (c : Nat) (d : Deck) (i st : Nat) (pos : Option Nat) (good failed : Bool) : Block :=
  let sending := ((b.deck? c).map (·.sending)).getD []
  let u : Sent := { slot := i, pos := pos.getD 0, good := good, failed := failed, serials := sending, marks := b.flowMarks c d }
  let b := b.wf (DK_POS c) 16 13 (i + 1)
  let next := if d.compact && pos.isSome then d.pos + 1 else d.pos
  let b := b.modDeck c fun d =>
    { d with closed := SMap.erase d.closed i, status := SMap.put d.status i st, cursor := 0, fail := none, sending := []
             sent := (b.unacked c d) ++ (if pos.isSome then [u] else [])
             mask := (match pos with
               | some p => if good then SMap.put d.mask p true else d.mask
               | none => d.mask)
             pos := next
             surplus := if d.compact && d.fillwait && next == d.slotCount && i + 1 < d.last then some (i + 1) else d.surplus
             valid := if good then d.valid + 1 else d.valid
             voided := if good then d.voided else d.voided + 1 }
  if pos.isSome && d.target then b.tally 0x09 c none (travLen (posDesc d.desc 0)) else b

/-- A line write of the channel is acknowledged: its bytes are delivered, those of an info block apart (Table 16.1). -/
def Block.deckAcked (b : Block) (c : Nat) (be : BitVec 64) : Block :=
  match b.deck? c with
  | some d => b.guard (d.closing < 3) (·.tally 0x09 c none ((List.range 64).filter fun i => bit be i).length)
  | none => b

/-- A line write of the channel has failed for good (R352): of the head slot it is an abort at that byte; of a slot delivered before
it, the status byte and the mask bit say so; of the info block or of an unfilled position it is not made, and the deck goes on
(R350). (DEDUCED, log entry 54) -/
def Block.deckFails (b : Block) (c serial st : Nat) : Block :=
  b.modDeck c fun d =>
    let d := if d.sending.contains serial && d.fail.isNone then { d with fail := some st } else d
    let hit := fun (u : Sent) => u.serials.contains serial && !u.failed
    (d.sent.filter hit).foldl (fun d u =>
      { d with status := SMap.put d.status u.slot st
               mask := if u.good then SMap.erase d.mask u.pos else d.mask
               valid := if u.good then d.valid - 1 else d.valid
               voided := if u.good then d.voided + 1 else d.voided })
      { d with sent := d.sent.map fun u => if hit u then { u with good := false, failed := true } else u }

/-- Deliver the closed head slot (R349, R351, R352). (DEDUCED, log entry 54) -/
def Block.deliverHead (b : Block) (c most : Nat) (d : Deck) : Block :=
  let i := b.dkHead c
  match SMap.find d.closed i with
  | none => b
  | some x =>
    let pos := if !d.compact then some i else if x.isPlaced then some d.pos else none
    match pos with
    | none => b.headDone c d i x.status none false false
    | some p =>
      let r := b.sendPos c most d p (if x.isPlaced then some (d.place i) else none) x.job
      match r.2 with
      | .written => r.1.headDone c d i x.status pos x.isPlaced false
      | .failed st => r.1.headDone c d i st pos false true
      | .waits => r.1

/-- SLOT_DELIVER (R349): at most `most` line writes in this step, where that is not 0. -/
def execSlotDeliver (c most : Nat) (s : State) : Host.Outcome State Fault Refusal :=
  s.upd fun b => b.whenLive fun b =>
    match b.deck? c with
    | none => b
    | some d => b.guard (b.deckRuns c d && d.closing == 0 && !b.deckEnds c d && (!d.target || !d.flows.isEmpty)) fun b =>
        b.deliverHead c most d

/-- FLOW_ACQUIRE (R372). -/
def execFlowAcquire (c : Nat) (s : State) : Host.Outcome State Fault Refusal :=
  s.upd fun b => b.whenLive fun b =>
    match b.deck? c with
    | none => b
    | some d => b.guard (b.deckRuns c d && d.target && d.flows.isEmpty && b.flOn &&
        ((SMap.find d.closed (b.dkHead c)).isSome || b.deckEnds c d)) fun b => b.acquire c d

/-! The deck boundary (R350, Table 12.7). -/

def Deck.maskBytes (d : Deck) : Nat := 64 * cdiv d.slotCount 512
def Deck.statusBytes (d : Deck) : Nat := 64 * cdiv d.last 64

/-- The first byte of info block n. -/
def Deck.infoAddr (d : Deck) (n : Nat) : Nat :=
  (d.info + n % Nat.max 1 d.dbuf * (64 + d.maskBytes + d.statusBytes)) % 2 ^ 64

/-- Byte `k` of the mask. -/
def Deck.maskByte (d : Deck) (k : Nat) : Byte :=
  BitVec.ofNat 8 (byteOf fun i => b2n (SMap.get noneIn d.mask (8 * k + i)))

/-- The header of an info block as a number of 64 bytes. -/
def Deck.header (d : Deck) (n : Nat) (epoch : Byte) : Nat :=
  let surplus := match d.surplus with
    | some x => d.last - x
    | none => 0
  n + epoch.toNat * 2 ^ 24 + d.valid * 2 ^ 32 + d.voided * 2 ^ 64 + (surplus % 256 + b2n d.short * 256) * 2 ^ 96 +
    d.stamp % 2 ^ 64 * 2 ^ 128

/-- The bytes of an info block in address order. (DEDUCED, log entry 54) -/
def Deck.infoBytes (d : Deck) (n : Nat) (epoch : Byte) : List Byte :=
  leBytes 64 (d.header n epoch) ++ (List.range d.maskBytes).map d.maskByte ++
    (List.range d.statusBytes).map fun i => BitVec.ofNat 8 (SMap.get zeroNat d.status i)

/-- The writes of an info block in the order of R350: mask, status bytes, header bytes 0x04 to 0x3F, word 0x00. -/
def Deck.infoWrites (d : Deck) (n : Nat) (epoch : Byte) : List (Nat × Byte) :=
  let xs := bytesAt (d.infoAddr n) (d.infoBytes n epoch)
  xs.drop 64 ++ (xs.take 64).drop 4 ++ xs.take 4

/-- Where the part of an info block ends that the cursor stands in: its writes are acknowledged before the next part's begin. -/
def Deck.infoStop (d : Deck) : Nat :=
  let m := d.maskBytes + d.statusBytes
  if d.cursor < m then m else if d.cursor < m + 60 then m + 60 else m + 64

/-- A deck whose flows carried its samples sends its info block after them (R373). -/
def Block.closeFlows (b : Block) (c : Nat) (d : Deck) : Block :=
  let xs := d.infoBytes (b.dkDeck c) (b.deckEpoch c)
  (b.each d.pairs fun b p => match p.flow with
    | some n => match b.flow? n with
      | some x =>
        if x.chan = c ∧ x.deck = b.dkDeck c then
          b.setFlow n { x with out := x.out ++ xs, bytes := x.bytes + xs.length, complete := true }
        else b
      | none => b
    | none => b).feedLocals

/-- A flow's samples are all there: its last packet may be short, in whole flits. -/
def Flow.flushed (x : Flow) : Flow :=
  let pad := (64 - x.bytes % 64) % 64
  { x with flush := true, out := x.out ++ List.replicate pad 0, bytes := x.bytes + pad, infoAt := x.bytes + pad }

/-- The flows of this deck that are still there. -/
def Block.deckFlows (b : Block) (c : Nat) : List (Nat × Flow) :=
  b.fk.flume.flows.filter fun e => e.2.chan == c && e.2.deck == b.dkDeck c

/-- Every byte of the deck's flows has been sent and acknowledged (R373). -/
def Block.flowsQuiet (b : Block) (c : Nat) : Bool :=
  (b.deckFlows c).all fun e =>
    e.2.out.isEmpty && e.2.inUse == 0 && !(b.fk.flume.rxHeld.any fun x => x.1 == e.1 && 256 ≤ x.1)

/-- Flows that the deck took and gave to no pair are free again. -/
def Block.dropSpare (b : Block) (c : Nat) (d : Deck) : Block :=
  b.each (d.flows.filter fun n => d.pairs.all fun p => p.flow ≠ some n) fun b n =>
    match b.flow? n with
    | some x => if x.chan = c ∧ x.receivers = [] ∧ !x.opened then b.dropFlow n else b
    | none => b

/-- The next deck number is current; its slots are not open yet (R350 step 5, R351). -/
def Block.deckDone (b : Block) (c : Nat) : Block :=
  let n := b.dkDeck c
  let b := ((b.wf (DK_STAT c) 24 4 (b.dkInflight c + 1)).wf (DK_DECK c) 0 24 (n + 1)).wf (DK_POS c) 16 13 0
  b.modDeck c fun d =>
    { d with isOpen := false, closed := [], status := [], mask := [], pos := 0, valid := 0, voided := 0, short := false
             surplus := none, closing := 0, cursor := 0, sending := [], sent := [], late := [], need := none, fail := none
             flows := [], pairs := []
             surplusRec := match d.surplus with
               | some i => (d.surplusRec ++ [(n, i)]).drop (d.surplusRec.length + 1 - 16)
               | none => d.surplusRec }

/-- The info block goes to memory from the cursor on (R350): a part at a time, each once the writes before it are acknowledged; a byte
that fails is left out, and after an abort the rest. -/
def Block.closeInfo (b : Block) (c most : Nat) (d : Deck) : Block :=
  if d.fail.isSome then b.deckDone c
  else b.guard (b.acked (· == .landing c)) fun b =>
    let xs := d.infoWrites (b.dkDeck c) (b.deckEpoch c)
    let o := b.oweRun (.landing c) most (b.mapSkip d.ctx) ((xs.take d.infoStop).drop d.cursor)
    let k := d.cursor + o.n
    match o.halt with
    | some (.miss va _) => o.b.modDeck c fun d => { d with cursor := k, need := some (b.deckNeed d none va true k xs.length) }
    | _ => if xs.length ≤ k then o.b.deckDone c else o.b.modDeck c fun d => { d with cursor := k }

/-- Fill the positions that no slot took, one after the other (R351); true when all are filled. -/
def Block.fillPositions (b : Block) (c most : Nat) : Nat → Block × Bool
  | 0 => (b, true)
  | k + 1 =>
    match b.deck? c with
    | none => (b, true)
    | some d =>
      if !d.compact || d.slotCount ≤ d.pos then (b, true)
      else
        let r := b.sendPos c most d d.pos none none
        match r.2 with
        | .waits => (r.1, false)
        | _ => ((r.1.modDeck c fun d => { d with pos := d.pos + 1, cursor := 0, sending := [], fail := none }).guard d.target
            (·.tally 0x09 c none (travLen (posDesc d.desc 0)))).fillPositions c most k

/-- The deck starts to close: SHORT is known (R351). -/
def Deck.beginClose (d : Deck) : Deck := { d with closing := 1, short := d.compact && d.pos < d.slotCount }

/-- The stages of a deck's close: 1 unfilled positions take FILL; 2 STAMP is taken, and every delivery write is waited for; 3 the
info block goes onto the flows, which are waited for, and to memory. (DEDUCED, log entry 54) -/
def Block.closeStep (b : Block) (c most : Nat) (d : Deck) : Block :=
  if d.closing ≤ 1 then
    let b := if d.closing = 0 then b.setDeck c d.beginClose else b
    let r := b.fillPositions c most (d.slotCount + 1)
    if !r.2 then r.1
    else
      let b := r.1.modDeck c fun d => { d with closing := 2, stamp := b.now, cursor := 0, sending := [], fail := none }
      if d.target then ((b.each (b.deckFlows c) fun b e => b.setFlow e.1 e.2.flushed).dropSpare c d).feedLocals else b
  else if d.closing = 2 then
    b.guard (b.flowsQuiet c && b.acked (· == .landing c)) fun b =>
      (if d.target then b.closeFlows c d else b).modDeck c fun d => { d with closing := 3, cursor := 0, fail := none }
  else b.guard ((b.deckFlows c).isEmpty) fun b => b.closeInfo c most d

/-- DECK_CLOSE (R350): at most `most` line writes of a position or of the info block in this step, where that is not 0. -/
def execDeckClose (c most : Nat) (s : State) : Host.Outcome State Fault Refusal :=
  s.upd fun b => b.whenLive fun b =>
    match b.deck? c with
    | none => b
    | some d => b.guard (b.deckRuns c d && (0 < d.closing || b.deckEnds c d) &&
        (!d.target || 2 ≤ d.closing || !d.flows.isEmpty)) fun b => b.closeStep c most d

/-- The channel's space lies below the landing's limit (R343). -/
def Block.spaceFits (b : Block) (d : Deck) : Bool := d.spaceBase + d.spaceBytes ≤ b.landLimit

/-- DECK_OPEN (R350). -/
def Block.deckOpen (b : Block) (c : Nat) (d : Deck) : Block :=
  b.guard (b.deckEn c && !d.isOpen && b.dkInflight c < d.dbuf && b.spaceFits d &&
      !(b.fk.cmds.any fun e => e.2.copying && e.2.chan == c)) fun b => b.setDeck c { d with isOpen := true }

/-- DECK_OPEN (R350). -/
def execDeckOpen (c : Nat) (s : State) : Host.Outcome State Fault Refusal :=
  s.upd fun b => b.whenLive fun b =>
    match b.deck? c with
    | none => b
    | some d => b.deckOpen c d

/-- A DK_RELEASE write (Table 12.5). -/
def Block.dkRelease (b : Block) (c : Nat) (data : Word) : Block :=
  b.wf (DK_STAT c) 24 4 (b.dkInflight c - bits data 0 4)

/-- DK_RELEASE (R350). -/
def execDkRelease (c : Nat) (data : Word) (s : State) : Host.Outcome State Fault Refusal :=
  s.upd fun b => b.guard (c < 64) fun b => b.portWrite (DK_RELEASE c) data (·.dkRelease c data)

/-! Stragglers (R353, R354). -/

/-- The straggler limit in force; none for no limit. -/
def Block.stragLimit (b : Block) (c : Nat) (d : Deck) : Option Nat :=
  let budget := (b.reg (DK_BUDGET c)).toNat
  if budget = 0 then none
  else if d.times.length < 64 then some budget
  else some (Nat.max (b.rf (DK_STRAG c) 0 24) (Nat.max 2 (b.rf (DK_STRAG c) 24 8) * (d.times.sum / 64)))

/-- The open head slot is voided (R353, R354). -/
def Block.stragVoid (b : Block) (c : Nat) (d : Deck) : Block :=
  let e := (b.dkDeck c, b.dkHead c)
  let b := if 64 ≤ d.strag.length then b.wf (DK_STAT c) 29 1 1 else b
  let b := b.modDeck c fun d =>
    { d with closed := SMap.put d.closed e.2 (.voided stStraggler none), late := d.late ++ [e.2]
             strag := (d.strag ++ [e]).drop (d.strag.length + 1 - 64) }
  ((b.satAdd (DK_VOIDS c) 16 16 1).causeMovement 5).tally 0x24 0 none 1

/-- STRAGGLER_VOID (R353): `age` is the time for which the head slot has been open, in ticks. -/
def execStragglerVoid (c age : Nat) (s : State) : Host.Outcome State Fault Refusal :=
  s.upd fun b => b.whenLive fun b =>
    match b.deck? c with
    | none => b
    | some d => match b.stragLimit c d with
      | none => b
      | some l => b.guard (b.deckRuns c d && d.closing == 0 && !b.deckEnds c d && l < age &&
          (SMap.find d.closed (b.dkHead c)).isNone) fun b => b.stragVoid c d

/-! Enable, disable, advance (R345, R355). -/

/-- The channel's SLOT commands that wait, in a park or in a queue, or copy end. -/
def Block.endSlots (b : Block) (c st : Nat) : Block :=
  b.each (b.fk.cmds.filter fun e => (e.2.parked || e.2.copying || e.2.waited) && e.2.phase == .accepted && e.2.chan == c) fun b e =>
    b.slotEnds e.1 e.2 st

/-- A transfer is no longer suspended, and its FID is free (R124). -/
def Block.endSusp (b : Block) (w : Suspender) : Block :=
  b.setXl fun t => { t with fids := SMap.keep t.fids fun _ x => x.who ≠ w, holding := t.holding.filter fun x => x.who ≠ w }

/-- A channel is disabled (R345): the deck is discarded, its SLOTs end, its flows abort. -/
def Block.dkDisable (b : Block) (c : Nat) : Block :=
  let b := (b.wf (DK_CTRL c) 31 1 0).endSlots c stTeardown
  let locals := b.fk.flume.flows.filter fun e => 256 ≤ e.1 && e.2.chan == c
  let b := b.each locals fun b e => ((b.dropFlow e.1).rxForget e.1).rxEnd e.1 fun x => x.endOf stTeardown 0
  let b := (b.abortFlows stTeardown fun x => x.chan == c && x.opened).setFlume fun f =>
    { f with flows := SMap.keep f.flows fun _ x => x.chan ≠ c }
  let b := (b.endSusp (.deck c)).modDeck c fun d =>
    { d with isOpen := false, closed := [], status := [], mask := [], pos := 0, valid := 0, voided := 0, short := false
             surplus := none, closing := 0, cursor := 0, sending := [], sent := [], late := [], need := none, fail := none
             flows := [], pairs := [], strag := []
             surplusRec := [], downEpoch := some (b.deckEpoch c) }
  b.wf (DK_STAT c) 24 4 0

/-- The channel as its registers would enable it, once D has been read. -/
def Block.dkConfig (b : Block) (c : Nat) (desc : Desc) : Deck :=
  { desc := desc, ctrl := b.reg (DK_CTRL c), slots := b.reg (DK_SLOTS c), space := b.reg (DK_SPACE c),
    dstride := (b.reg (DK_DSTRIDE c)).toNat, dbuf := b.rf (DK_DBUF c) 0 4, info := b.pair (DK_INFO_LO c), isOpen := true,
    closed := [], status := [], mask := [], pos := 0, valid := 0, voided := 0, stamp := 0, short := false, surplus := none,
    closing := 0, cursor := 0, sending := [], sent := [], late := [], times := [], strag := [], surplusRec := [], downEpoch := none, flows := [], pairs := [],
    need := none, fail := none }

/-- The checks of R345. (DEDUCED, log entry 54) -/
def Block.dkOk (b : Block) (c : Nat) (d : Deck) : Bool :=
  let x := d.desc
  descOk x && dSpace x == 0 && dCtx x == d.ctx && (dOwner x == 0 || d.target) &&
  viewExt x (dRank x - 1) == d.slotCount &&
  (if dShape x = 1 then 2 ≤ posDim x else !isScaled (dType x) || posDim x ≠ 0) &&
  1 ≤ d.slotCount && d.slotCount ≤ 4096 && 1 ≤ d.win && d.win ≤ d.last &&
  (d.extra == 0 || (d.compact && d.fillwait)) && 1 ≤ d.dbuf && d.dbuf ≤ 15 &&
  d.win * sstride x ≤ d.spaceBytes && b.spaceFits d &&
  !b.meetsBoom false d.spaceBase d.spaceBytes none && !b.meetsDeck d.spaceBase d.spaceBytes (some c)

/-- An enable is refused. -/
def Block.dkRefuse (b : Block) (c : Nat) : Block := (b.wf (DK_STAT c) 30 1 1).causeMovement 4

/-- One of the two line reads of D has failed for good (R345, R63). -/
def Block.descLost (b : Block) (pa : Nat) : Bool := b.fk.accounted.any fun e => !e.1 && (e.2 == pa / 64 || e.2 == pa / 64 + 1)

/-- The failed reads of D have had their effect. -/
def Block.descTold (b : Block) (pa : Nat) : Block :=
  b.setFk fun k => { k with accounted := k.accounted.filter fun e => e.1 || (e.2 ≠ pa / 64 && e.2 ≠ pa / 64 + 1) }

/-- A write of EN = 1 to a disabled channel (R345). (DEDUCED, log entry 54) -/
def Block.dkEnable (b : Block) (c : Nat) : Block :=
  let va := b.pair (DK_DESC_LO c)
  match b.xlateNow (b.rf (DK_CTRL c) 16 6) va false with
  | none => b.dkRefuse c
  | some pa =>
    if b.descLost pa then (b.descTold pa).dkRefuse c
    else
    let d := b.dkConfig c (BitVec.ofNat 1024 (b.xnat pa 128))
    if b.dkOk c d then
      let b := (b.wf (DK_CTRL c) 31 1 1).wf (DK_CTRL c) 0 8 (b.rf (DK_CTRL c) 0 8 + 1)
      (((b.wf (DK_DECK c) 0 24 0).wf (DK_POS c) 16 13 0).wf (DK_STAT c) 24 4 0).setDeck c { d with ctrl := b.reg (DK_CTRL c) }
    else b.dkRefuse c

/-- ADVANCE (R355), in one step. (DEDUCED, log entry 54) -/
def Block.dkAdvance (b : Block) (c : Nat) : Block :=
  let b := b.wf (DK_CTRL c) 0 8 (b.rf (DK_CTRL c) 0 8 + 1)
  let b := b.endSlots c stEpochStale
  let busy := b.isSusp (.deck c)
  let head := b.dkHead c
  b.modDeck c fun d =>
    let begun := 0 < d.cursor || !d.sending.isEmpty || d.need.isSome || d.fail.isSome || busy
    { d with strag := [], surplusRec := []
             closed := SMap.keep d.closed fun i _ => i == head && begun
             late := d.late.filter fun i => i < head || (i == head && begun) }

/-- A DK_CTRL write (Table 12.5, R345, R355). -/
def Block.dkCtrl (b : Block) (c : Nat) (data : Word) : Block :=
  let was := b.deckEn c
  let b := b.setReg (DK_CTRL c) (writeBits { rw := 0x0E3F0000, w1c := 0, reset := 0 } (b.reg (DK_CTRL c)) data)
  if was then
    if !bit data 31 then b.dkDisable c
    else if bit data 30 then b.dkAdvance c else b
  else if bit data 31 then b.dkEnable c else b

/-- DECK_CHANNEL_ENABLE (R345). -/
def execDeckChannelEnable (c : Nat) (data : Word) (s : State) : Host.Outcome State Fault Refusal :=
  s.upd fun b => b.guard (c < 64) fun b => b.portWrite (DK_CTRL c) data (·.dkCtrl c data)
/-- DECK_CHANNEL_DISABLE (R345). -/
def execDeckChannelDisable (c : Nat) (data : Word) (s : State) : Host.Outcome State Fault Refusal :=
  s.upd fun b => b.guard (c < 64) fun b => b.portWrite (DK_CTRL c) data (·.dkCtrl c data)
/-- DECK_ADVANCE (R355). -/
def execDeckAdvance (c : Nat) (data : Word) (s : State) : Host.Outcome State Fault Refusal :=
  s.upd fun b => b.guard (c < 64) fun b => b.portWrite (DK_CTRL c) data (·.dkCtrl c data)

end Sys2Proof.Machine
end

