-- ==== Sys2Proof/Machine/Pixels.lean ====
section
/-! DEFINITION. The pixel pipeline, the statistics record and the start-up loops of a camera frame (9.4, 9.5). -/

namespace Sys2Proof.Machine

/-! Pipeline tables (Table 9.7). -/

/-- The default of the table's byte at an offset. -/
def tableDefault (o : Nat) : Nat :=
  let v :=
    if o / 2 = 4 then 0xFFFF
    else if o / 2 = 5 then 1
    else if o / 2 = 8 then 8
    else if o / 2 = 9 then 0x8000
    else if o = 0x14 then 2
    else if 0x20 ≤ o ∧ o < 0x32 then (if (o - 0x20) / 2 % 4 = 0 then 0x1000 else 0)
    else if 0x40 ≤ o ∧ o < 0xC2 then min 65535 (1024 * ((o - 0x40) / 2))
    else if 0x100 ≤ o ∧ o < 0x2F8 then 0x1000
    else 0
  v / 256 ^ (o % 2) % 256

/-- The default of the byte memory that holds every table: stream, bank, offset. -/
def tableByte (k : Nat) : Byte := BitVec.ofNat 8 (tableDefault (k % 1024))

/-- The bits of the table's byte at an offset that hold a value; the rest are 0. -/
def tableMask (o : Nat) : Byte :=
  if o < 0xA ∨ o = 0x10 ∨ o = 0x11 ∨ o = 0x12 ∨ o = 0x13 ∨ o = 0x14 ∨ (0x20 ≤ o ∧ o < 0x32) ∨ (0x40 ≤ o ∧ o < 0xC2) ∨
      (0x100 ≤ o ∧ o < 0x2F8) then 0xFF
  else if o = 0xA then 0x0F
  else 0

/-- The table of a bank, by offset. -/
def tableBank (m : SMap Byte) (s bank : Nat) : SMap Byte :=
  (SMap.keep m fun k _ => k / 1024 == 2 * s + bank).map fun e => (e.1 % 1024, e.2)

/-- A byte of a table. -/
def tb8 (m : SMap Byte) (o : Nat) : Nat := (SMap.get tableByte m o).toNat

/-- A 16-bit value of a table. -/
def tb16 (m : SMap Byte) (o : Nat) : Nat := tb8 m o + 256 * tb8 m (o + 1)

def tbBlack (m : SMap Byte) (c : Nat) : Nat := tb16 m (2 * c)
def tbDpc (m : SMap Byte) : Nat := tb16 m 0x8
def tbMatrix (m : SMap Byte) : Nat := tb16 m 0xA % 8
def tbLimited (m : SMap Byte) : Bool := tb16 m 0xA / 8 % 2 = 1
def tbExpMin (m : SMap Byte) : Nat := tb16 m 0x10
def tbDgainMax (m : SMap Byte) : Nat := tb16 m 0x12
def tbAeDelay (m : SMap Byte) : Nat := tb8 m 0x14 % 8
def tbCcm (m : SMap Byte) (i k : Nat) : Int := sext 16 (tb16 m (0x20 + 2 * (3 * i + k)))
def tbTone (m : SMap Byte) (i : Nat) : Nat := tb16 m (0x40 + 2 * i)
def tbShade (m : SMap Byte) (c i j : Nat) : Nat := tb16 m (0x100 + 2 * ((c * 7 + j) * 9 + i))

/-! Samples as received. -/

/-- The bytes of an image line. -/
def Frame.row (f : Frame) (y : Nat) : List Byte :=
  match f.lines.find? fun l => l.row == y with
  | some l => l.bytes
  | none => []

def byteAt (xs : List Byte) (i : Nat) : Nat := (xs.getD i 0).toNat

/-- A raw sample of a packed line (the packing of the CSI-2 data types). (PRESUMED, log entry 42) -/
def rawSample (dt : Nat) (xs : List Byte) (x : Nat) : Nat :=
  if dt = 0x2A then byteAt xs x
  else if dt = 0x2B then byteAt xs (x / 4 * 5 + x % 4) * 4 + byteAt xs (x / 4 * 5 + 4) / 4 ^ (x % 4) % 4
  else if dt = 0x2C then byteAt xs (x / 2 * 3 + x % 2) * 16 + byteAt xs (x / 2 * 3 + 2) / 16 ^ (x % 2) % 16
  else if dt = 0x2D then
    let g := x / 4 * 7
    let low := byteAt xs (g + 4) + 256 * byteAt xs (g + 5) + 65536 * byteAt xs (g + 6)
    byteAt xs (g + x % 4) * 64 + low / 64 ^ (x % 4) % 64
  else byteAt xs (2 * x) * 256 + byteAt xs (2 * x + 1)

/-- The colour at a CFA index: 0 red, 1 green, 2 blue (R265). -/
def cfaColour (cfa i : Nat) : Nat :=
  ((if cfa = 0 then [0, 1, 1, 2] else if cfa = 1 then [1, 0, 2, 1] else if cfa = 2 then [1, 2, 0, 1] else [2, 1, 1, 0]).getD
    i 1)

/-- The CFA index of a site. -/
def cfaIndex (r c : Nat) : Nat := 2 * (r % 2) + c % 2

def Frame.siteColour (f : Frame) (r c : Nat) : Nat := cfaColour f.cfg.cfa (cfaIndex r c)

/-- A coordinate of the frame, mirrored at its edges (R265). -/
def mirror (i : Int) (n : Nat) : Nat := (padIndex i n 2).getD 0

/-! Stages 1 to 7 of Table 9.5. -/

/-- Stages 1 and 2 of a raw site. -/
def Frame.black (f : Frame) (r c : Nat) : Nat :=
  let x := rawSample f.cfg.dt (f.row r) c * 2 ^ (16 - dtBits f.cfg.dt)
  let k := tbBlack f.table (cfaIndex r c)
  if x ≤ k then 0 else min 65535 (((x - k) * 65535 + (65535 - k) / 2) / (65535 - k))

/-- Stage 3. -/
def Frame.defect (f : Frame) (r c : Nat) : Nat :=
  let x := f.black r c
  let n := [(c : Int) - 4, (c : Int) - 2, (c : Int) + 2, (c : Int) + 4].map fun i => f.black r (mirror i f.cfg.inW)
  let hi := n.foldl max 0
  let lo := n.foldl min 65535
  let t := tbDpc f.table
  if hi + t < x then hi else if t < lo ∧ x < lo - t then lo else x

/-- The cell and the fraction of a shading axis. -/
def shadeAxis (p cells n : Nat) : Nat × Nat :=
  let u := p * cells * 4096 / (n - 1)
  if u / 4096 = cells then (cells - 1, 4096) else (u / 4096, u % 4096)

/-- Stage 4: the value that the zone statistics see. -/
def Frame.shaded (f : Frame) (r c : Nat) : Nat :=
  let x := f.defect r c
  let ix := shadeAxis c 8 f.cfg.inW
  let jy := shadeAxis r 6 f.cfg.inH
  let s := tbShade f.table (cfaIndex r c)
  let top := s ix.1 jy.1 * (4096 - ix.2) + s (ix.1 + 1) jy.1 * ix.2
  let bot := s ix.1 (jy.1 + 1) * (4096 - ix.2) + s (ix.1 + 1) (jy.1 + 1) * ix.2
  let g := (top * (4096 - jy.2) + bot * jy.2 + 2 ^ 23) / 2 ^ 24
  min 65535 ((x * g + 2048) / 4096)

/-- Stage 5: a value of a colour with the frame's gains. -/
def Frame.gained (f : Frame) (colour x : Nat) : Nat :=
  let gain := if colour = 0 then f.loop.gainR else if colour = 2 then f.loop.gainB else 4096
  min 65535 ((x * ((gain * f.loop.dgain + 2048) / 4096) + 2048) / 4096)

/-- A raw site after stage 5. -/
def Frame.site (f : Frame) (r c : Nat) : Nat := f.gained (f.siteColour r c) (f.shaded r c)

/-- (sum + ⌊k ÷ 2⌋) ÷ k. -/
def mean (xs : List Nat) : Nat := (xs.sum + xs.length / 2) / xs.length

/-- The sites at offsets from a site. -/
def Frame.around (f : Frame) (r c : Nat) (os : List (Int × Int)) : Nat :=
  mean (os.map fun o => f.site (mirror ((r : Int) + o.1) f.cfg.inH) (mirror ((c : Int) + o.2) f.cfg.inW))

/-- Stage 6: one colour at a raw site. -/
def Frame.demosaic (f : Frame) (r c colour : Nat) : Nat :=
  let own := f.siteColour r c
  if own = colour then f.site r c
  else if own ≠ 1 then
    (if colour = 1 then f.around r c [(-1, 0), (0, -1), (0, 1), (1, 0)]
     else f.around r c [(-1, -1), (-1, 1), (1, -1), (1, 1)])
  else if f.siteColour r (c + 1) = colour then f.around r c [(0, -1), (0, 1)]
  else f.around r c [(-1, 0), (1, 0)]

/-- An RGB888 channel after stage 5 (R267): the bytes of a pixel are blue, green, red. (PRESUMED, log entry 42) -/
def Frame.rgbSite (f : Frame) (r c colour : Nat) : Nat :=
  f.gained colour (byteAt (f.row r) (3 * c + (2 - colour)) * 256)

/-- A colour of a pixel after stage 6. -/
def Frame.pixel (f : Frame) (r c k : Nat) : Nat := if isRaw f.cfg.dt then f.demosaic r c k else f.rgbSite r c k

/-- Stage 7. -/
def Frame.corrected (f : Frame) (r c k : Nat) : Nat :=
  let v := (List.range 3).foldl (fun (acc : Int) i => acc + tbCcm f.table k i * (f.pixel r c i : Int)) 0
  (clampInt 0 65535 ((v + 2048) / 4096)).toNat

/-! Stages 8 and 9. -/

/-- A colour of an output pixel after stage 8. -/
def Frame.windowed (f : Frame) (ox oy k : Nat) : Nat :=
  let g := f.cfg
  mean ((List.range g.dy).flatMap fun b => (List.range g.dx).map fun a =>
    f.corrected (g.y0 + g.dy * oy + b) (g.x0 + g.dx * ox + a) k)

/-- A colour of an output pixel after stage 9. -/
def Frame.toned (f : Frame) (ox oy k : Nat) : Nat :=
  let t := f.windowed ox oy k
  let i := t / 1024
  (tbTone f.table i * (1024 - t % 1024) + tbTone f.table (i + 1) * (t % 1024) + 512) / 1024

/-! Output (R266, Table 9.6). -/

/-- Y, Cb and Cr of an output pixel in FP32. (DESIGN CHOICE, log entry 40) -/
def Frame.ycc (f : Frame) (ox oy : Nat) : List Fp :=
  colour (tbMatrix f.table) true ((List.range 3).map fun k => f32div (f32nat (f.toned ox oy k)) (f32nat 65535))

/-- Quantisation to n bits: R234 inverted. -/
def quantise (limited : Bool) (n ch : Nat) (v : Fp) : Nat :=
  let q := 2 ^ (n - 8)
  let x :=
    if limited then (if ch = 0 then f32add (f32nat (16 * q)) (f32mul (f32nat (219 * q)) v)
      else f32add (f32nat (128 * q)) (f32mul (f32nat (224 * q)) v))
    else if ch = 0 then f32mul v (f32nat (2 ^ n - 1))
    else f32add (f32mul v (f32nat (2 ^ n - 1))) (f32nat (2 ^ (n - 1)))
  (x.toUint n).toNat

/-- A chroma sample of a 2 × 2 square of output pixels. -/
def Frame.chroma (f : Frame) (x y ch : Nat) : Fp :=
  let at4 := fun (i j : Nat) => ((f.ycc (2 * x + i) (2 * y + j)).getD ch (.fin false 0 0))
  f32mul (f32add (f32add (at4 0 0) (at4 1 0)) (f32add (at4 0 1) (at4 1 1))) (f32con 1 (-2))

/-- YUV422 passes as it is: neither windowed nor decimated (R267). (DESIGN CHOICE, log entry 40) -/
def CamCfg.whole (c : CamCfg) : Bool := c.dx == 1 && c.dy == 1 && c.winW == c.inW && c.winH == c.inH

/-- An element of a plane; none where the spec states no value (DESIGN CHOICE, log entry 40). -/
def Frame.planeElem (f : Frame) (part ch x y : Nat) : Option Nat :=
  let g := f.cfg
  let n := if g.out = 5 then 16 else 8
  if g.dt = 0x1E then
    if !g.whole then none
    else if part = 0 then some (byteAt (f.row y) (2 * x + 1))
    else some ((byteAt (f.row (2 * y)) (4 * x + 2 * ch) + byteAt (f.row (2 * y + 1)) (4 * x + 2 * ch) + 1) / 2)
  else if g.out = 0 then some (f.site (g.y0 + y) (g.x0 + x))
  else if g.out = 1 then some (min 255 ((f.toned x y ch + 128) / 256))
  else if g.out = 2 then some (f.toned x y ch)
  else if tbMatrix f.table = 0 ∨ 3 < tbMatrix f.table then none
  else if part = 0 then some (quantise (tbLimited f.table) n 0 ((f.ycc x y).getD 0 (.fin false 0 0)))
  else some (quantise (tbLimited f.table) n (ch + 1) (f.chroma x y (ch + 1)))

/-- The bytes of a plane, components fastest, then columns, then rows; `free` gives the value of an element that the
spec does not state. -/
def Frame.planeData (f : Frame) (part free : Nat) : List Byte :=
  match f.cfg.plane part with
  | none => []
  | some (k, w, h, e) =>
    (List.range h).flatMap fun y => (List.range w).flatMap fun x => (List.range k).flatMap fun c =>
      leBytes e ((f.planeElem part c x y).getD (free / 65536 ^ ((y * w + x) * k + c)))

/-! The statistics record (Table 9.8). -/

/-- The output pixels. -/
def CamCfg.outputs (c : CamCfg) : List (Nat × Nat) :=
  (List.range c.hOut).flatMap fun y => (List.range c.wOut).map fun x => (x, y)

/-- The histogram bin of an output pixel. -/
def Frame.bin (f : Frame) (x y : Nat) : Nat :=
  if f.cfg.dt = 0x1E then byteAt (f.row (f.cfg.y0 + y)) (2 * (f.cfg.x0 + x) + 1)
  else (19595 * f.toned x y 0 + 38470 * f.toned x y 1 + 7471 * f.toned x y 2 + 32768) / 65536 / 256

/-- The histogram. -/
def Frame.hist (f : Frame) : List Nat :=
  f.cfg.outputs.foldl (fun (acc : List Nat) p => acc.modify (f.bin p.1 p.2) (· + 1)) (List.replicate 256 0)

/-- The sites of a zone. -/
def CamCfg.zone (c : CamCfg) (z : Nat) : List (Nat × Nat) :=
  let lo := fun (o n i : Nat) => o + i * n / 8
  let ys := (List.range (lo c.y0 c.winH (z / 8 + 1))).drop (lo c.y0 c.winH (z / 8))
  let xs := (List.range (lo c.x0 c.winW (z % 8 + 1))).drop (lo c.x0 c.winW (z % 8))
  ys.flatMap fun y => xs.map fun x => (y, x)

/-- SUM_R, SUM_G, SUM_B and SAT of a zone. -/
structure ZoneSum where
  r : Nat
  g : Nat
  b : Nat
  sat : Nat
  deriving DecidableEq, Repr

/-- The zone's sums for RAW and RGB888 input. (PRESUMED, log entry 42) -/
def Frame.zoneSum (f : Frame) (z : Nat) : ZoneSum :=
  let ps := f.cfg.zone z
  let full := 2 ^ dtBits f.cfg.dt - 1
  if isRaw f.cfg.dt then
    let of := fun (k : Nat) => ((ps.filter fun p => f.siteColour p.1 p.2 == k).map fun p => f.shaded p.1 p.2 / 16).sum
    { r := of 0, g := of 1, b := of 2,
      sat := (ps.filter fun p => rawSample f.cfg.dt (f.row p.1) p.2 == full).length }
  else
    let v := fun (p : Nat × Nat) (k : Nat) => byteAt (f.row p.1) (3 * p.2 + (2 - k))
    let of := fun (k : Nat) => (ps.map fun p => v p k * 256 / 16).sum
    { r := of 0, g := of 1, b := of 2,
      sat := (ps.flatMap fun p => (List.range 3).filter fun k => v p k == 255).length }

/-- The zone's sums for YUV422 input (R267): Y, Cb and Cr in SUM_G, SUM_B and SUM_R, a chroma sample at the even column
that it is sent with. The scale of a sample and what SAT counts are not stated. (DESIGN CHOICE, log entry 40) -/
def Frame.yuvSum (f : Frame) (free z : Nat) : ZoneSum :=
  let ps := f.cfg.zone z
  let scaled := fun (n : Nat) => n * (free % 2 ^ 16) % 2 ^ 32
  let chroma := fun (k : Nat) =>
    ((ps.filter fun p => p.2 % 2 == 0).map fun p => byteAt (f.row p.1) (2 * p.2 + k)).sum
  { r := scaled (chroma 2), g := scaled (ps.map fun p => byteAt (f.row p.1) (2 * p.2 + 1)).sum, b := scaled (chroma 0),
    sat := free / 2 ^ (16 + 32 * z) % 2 ^ 32 }

/-- The zones (R267, R269). (DESIGN CHOICE, log entry 40) -/
def Frame.zones (f : Frame) (free : Nat) : List ZoneSum :=
  (List.range 64).map fun z => if f.cfg.dt = 0x1E then f.yuvSum free z else f.zoneSum z

/-- The record of a frame (Table 9.8). -/
def Frame.statistics (f : Frame) (hist : List Nat) (zs : List ZoneSum) : List Byte :=
  leBytes 8 f.stamp.toNat ++ leBytes 4 f.fno ++ leBytes 4 (b2n (f.fno ≠ 0) + 2 * b2n f.seeded) ++ leBytes 4 f.loop.exp ++
  leBytes 4 f.loop.dgain ++ leBytes 4 (f.loop.gainR + 65536 * f.loop.gainB) ++ leBytes 4 f.received ++
  leBytes 4 (zs.map (·.sat)).sum ++ List.replicate 28 0 ++ hist.flatMap (leBytes 4) ++
  zs.flatMap fun z => leBytes 4 z.r ++ leBytes 4 z.g ++ leBytes 4 z.b ++ leBytes 4 z.sat

/-! The loops (R271, R272). -/

/-- A value that compares equal to 0. -/
def Fp.isZero : Fp → Bool
  | .fin _ m _ => m = 0
  | _ => false

/-- One gain of the white-balance loop. -/
def awbGain (g : Nat) (sg x : Fp) : Nat :=
  let cur := f32div (f32nat g) (f32nat 4096)
  let cur := f32add cur (f32mul (f32sub (f32div (f32mul sg (f32con 1 (-1))) x) cur) (f32con 1 (-2)))
  (clampInt 0x400 0xFFFF ((f32mul cur (f32nat 4096)).toInt 64)).toNat

/-- The white-balance loop (R271). -/
def awb (l : Loop) (zs : List ZoneSum) : Loop :=
  let ok := zs.filter fun z => z.sat == 0
  let sum := fun (p : ZoneSum → Nat) => ok.foldl (fun acc z => f32add acc (f32nat (p z))) (.fin false 0 0)
  let sr := sum (·.r)
  let sg := sum (·.g)
  let sb := sum (·.b)
  if sr.isZero || sg.isZero || sb.isZero then l
  else { l with gainR := awbGain l.gainR sg sr, gainB := awbGain l.gainB sg sb, seeds := false }

/-- The floor of a value that is not negative. -/
def Fp.floorNat : Fp → Nat
  | .fin _ m e => if 0 ≤ e then m * 2 ^ e.toNat else m / 2 ^ (-e).toNat
  | _ => 0

/-- The mean luma bin of a histogram. -/
def histMean (hist : List Nat) : Fp :=
  let r := hist.zipIdx.foldl (fun (acc : Fp × Fp) p =>
    (f32add acc.1 (f32nat p.1), f32add acc.2 (f32mul (f32nat p.2) (f32nat p.1)))) (.fin false 0 0, .fin false 0 0)
  f32div r.2 r.1

/-- EXP and DGAIN that the exposure loop asks for (R272). (DESIGN CHOICE, log entry 41) -/
def aeTarget (l : Loop) (tgt expMin expMax dgMax : Nat) (hist : List Nat) : Nat × Nat :=
  let m := (histMean hist).maxNum (f32nat 1)
  let ratio := ((f32div (f32nat tgt) m).maxNum (f32con 1 (-1))).minNum (f32nat 2)
  let tot := f32mul (f32mul (f32nat l.exp) (f32div (f32nat l.dgain) (f32nat 4096))) ratio
  let exp := (clampInt expMin expMax tot.floorNat).toNat
  (exp, (clampInt 0x1000 dgMax ((f32mul (f32div tot (f32nat exp)) (f32nat 4096)).toInt 64)).toNat)

/-- The ranges that Table 9.7 asks of EXP_MIN and DGAIN_MAX hold, and the histogram counts a pixel: else R272 states no
result (DESIGN CHOICE, log entry 41). -/
def aeStated (expMin expMax dgMax : Nat) (hist : List Nat) : Bool :=
  1 ≤ expMin && expMin ≤ expMax && 0x1000 ≤ dgMax && hist.any (· ≠ 0)

end Sys2Proof.Machine
end

