-- ==== Sys2Proof/Machine/Camera.lean ====
section
/-! DEFINITION. Camera ports and streams (9.1 to 9.3): packets, frames, admission, the line arbitration of the front end and its lanes. -/

namespace Sys2Proof.Machine

/-! Ports. -/

/-- The port's strap is 1 (R42). -/
def Block.camPresent (b : Block) (p : Nat) : Bool := p < 12 && b.ao.straps.cam.getLsbD p

/-- The port takes packets: it is present, enabled, in service and not under a reset (R254, R411, R415). -/
def Block.camUp (b : Block) (p : Nat) : Bool :=
  b.camPresent p && b.rb (CAM_PORT_CFG p) 31 && !b.isOut (unitId 0x5 p) && !b.unitInReset (CAM_PORT_CFG p)

/-- A packet event of a port that takes packets. (DEDUCED, log entry 43) -/
def Block.camEvent (b : Block) (p : Nat) (f : Block → Block) : Block := b.whenLive fun b => b.guard (b.camUp p) f

/-- The streams of a port (R251). -/
def portStreams (p : Nat) : List Nat := (List.range 4).map fun k => 4 * p + k

/-- The virtual channel that a slot binds. -/
def Block.camVc (b : Block) (s : Nat) : Nat := b.rf (CAM_CTRL s) 0 4

/-- The enabled stream that binds a virtual channel (R251). -/
def Block.camStream (b : Block) (p vc : Nat) : Option Nat :=
  (portStreams p).find? fun s => b.strEn s && b.camVc s == vc

def Block.camUnbound (b : Block) (p : Nat) : Block := b.satAdd (CAM_PORT_DISC p) 16 16 1
def Block.camUnsupp (b : Block) (p : Nat) : Block := b.satAdd (CAM_PORT_DISC p) 0 16 1

/-! Line buffers (R260). -/

/-- A line still lies in the line buffer: it is freed when the next line has been processed, the last line of an ended
frame when it has been itself. (DEDUCED, log entry 38) -/
def Frame.holdsLine (f : Frame) (l : Line) : Bool :=
  !(l.done && (f.lines.any (fun m => m.row == l.row + 1 && m.done) ||
    (f.ended && !f.lines.any fun m => m.row == l.row + 1)))

/-- Bytes of a frame's lines in the buffer. -/
def Frame.lineUse (f : Frame) : Nat := ((f.lines.filter f.holdsLine).map fun l => l.bytes.length).sum

/-- Frames of a stream. -/
def CamStream.frames (x : CamStream) : List Frame :=
  x.entries.filterMap fun e => match e with
    | .frame f => some f
    | .drops _ _ _ => none

/-- Bytes of a port's line buffer in use. (DEDUCED, log entry 38) -/
def Block.lineUse (b : Block) (p : Nat) : Nat :=
  ((portStreams p).map fun s => ((b.str s).frames.map Frame.lineUse).sum).sum

/-- LB_USED (Table 9.2). (DEDUCED, log entry 38) -/
def Block.lbUsed (b : Block) (p : Nat) : Nat := cdiv (b.lineUse p) 64

/-- LB_PEAK rises with LB_USED. (DEDUCED, log entry 38) -/
def Block.lbPeak (b : Block) (p : Nat) : Block :=
  b.wf (CAM_PORT_STAT p) 16 13 (max (b.rf (CAM_PORT_STAT p) 16 13) (b.lbUsed p))

/-! Frames. -/

/-- Discard every frame of a stream that is not complete (R257): no status, no drop run; its buffers return.
(DEDUCED, log entry 43) -/
def Block.discardFrames (b : Block) (s : Nat) : Block :=
  let gone := (b.str s).frames.filter fun f => !f.complete
  let b := b.modStr s fun x =>
    { x with
      entries := x.entries.filter fun e => match e with
        | .frame f => f.complete
        | .drops _ _ _ => true
      dropping := none }
  b.tidyWaiters.giveBack (gone.flatMap (·.bufs))

/-- The frame in progress of a stream becomes corrupt (R252, R253). -/
def Block.corrupt (b : Block) (s : Nat) : Block :=
  match (b.str s).current with
  | some f => b.modStr s fun x => x.modFrame f.id fun g => { g with corrupt := true }
  | none => b

/-- A packet's error makes the frame on its virtual channel corrupt, or every frame in progress on the port where the
virtual channel is not known (R252). -/
def Block.corruptOn (b : Block) (p : Nat) (vc : Option Nat) : Block :=
  match vc with
  | none => b.each (portStreams p) Block.corrupt
  | some v => match b.camStream p v with
    | some s => b.corrupt s
    | none => b

/-- A corrupt frame has run to its end (R253). -/
def Block.dropCorrupt (b : Block) (s : Nat) (f : Frame) : Block :=
  (b.satAdd (CAM_STAT s) 16 16 1).dropFrame s f.id stCorrupt

/-! Commits (R256, R258). -/

/-- The shadow copy. -/
def Block.shadow (b : Block) (s : Nat) : CamCfg :=
  { fmt := b.reg (CAM_STR s 0x04), size := b.reg (CAM_STR s 0x08), win := b.reg (CAM_STR s 0x0C),
    wsize := b.reg (CAM_STR s 0x10), boom := b.reg (CAM_STR s 0x14), ae := b.reg (CAM_STR s 0x28) }

/-- A pending commit is applied, or refused with the CAM_CFG cause (R256). -/
def Block.applyCommit (b : Block) (s : Nat) : Block :=
  if b.rb (CAM_CTRL s) 30 then
    let b := b.wf (CAM_CTRL s) 30 1 0
    let c := b.shadow s
    if c.valid then (b.modStr s fun x => { x with active := c }).wf (CAM_CTRL s) 29 1 (1 - b.rf (CAM_CTRL s) 29 1)
    else (b.wf (CAM_CFG_ERR0 + 4 * (s / 32)) (s % 32) 1 1).causeIntake 1
  else b

/-! Staleness (R261). -/

/-- The oldest held frame that no TAKE has begun on. -/
def CamStream.oldestUntaken (x : CamStream) : Option Frame := x.frames.find? fun f => f.admitted && !f.taken

/-- Waiting frames past STALE_US are dropped; while one waits because 4 are held, so is the oldest untaken one that is
complete and stale. (DEDUCED, log entry 43) -/
def Block.staleCheck (b : Block) (s : Nat) : Block :=
  let b := b.each ((b.str s).frames.filter fun f => !f.admitted && b.isStale s f) fun b f => b.dropFrame s f.id stStale
  let x := b.str s
  if x.waiting.isSome && x.held == 4 then
    match x.oldestUntaken with
    | some f => b.guard (f.complete && b.isStale s f) (·.dropFrame s f.id stStale)
    | none => b
  else b

/-- A frame joins the boom waiters from its Frame Start on (R336). -/
def Block.joinWaiters (b : Block) (s id : Nat) : Block :=
  b.setFk fun k => { k with booms := { k.booms with waiters := k.booms.waiters ++ [.frame s id] } }

/-! Packet events. -/

/-- The frame that a Frame Start begins. Its stamp is the last sample taken: the command stands after the sample at the
first `fk_tb_clk` edge that follows the packet (R273). (DEDUCED, log entry 39) (DESIGN CHOICE, log entry 87) -/
def Block.newFrame (b : Block) (s wc : Nat) : Frame :=
  let x := b.str s
  { id := b.nextId, fno := x.started % 2 ^ 32, wc := wc, stamp := BitVec.ofNat 64 b.now, cfg := x.active,
    table := tableBank b.fk.fe.tables s (b.rf (CAM_CTRL s) 29 1), lines := [], received := 0, corrupt := false,
    ended := false, admitted := false, complete := false, taken := false, lost := false, loop := x.loop, seeded := false, bufs := [],
    written := 0, record := [] }

/-- A Frame Start of a stream (R253, R258, R261, R273). (DEDUCED, log entry 43) -/
def Block.frameStart (b : Block) (s wc : Nat) : Block :=
  let b := match (b.str s).current with
    | some f => b.dropCorrupt s f
    | none => b
  let b := (b.modStr s fun x => { x with dropping := none }).applyCommit s
  let f := b.newFrame s wc
  let b := (b.modStr s fun x => { x with entries := x.entries ++ [.frame f], started := x.started + 1 }).bumpId
  (((b.setReg (CAM_STR s 0x34) (BitVec.ofNat 32 f.fno)).joinWaiters s f.id).admitFour s).staleCheck s

/-- CAM_FRAME_START (R250, R251, R261). -/
def execCamFrameStart (p vc wc : Nat) (s : State) : Host.Outcome State Fault Refusal :=
  s.upd fun b => b.camEvent p fun b => match b.camStream p vc with
    | some n => b.frameStart n wc
    | none => b.camUnbound p

/-- CAM_FRAME_ADMIT (R261). -/
def execCamFrameAdmit (n : Nat) (s : State) : Host.Outcome State Fault Refusal :=
  s.upd fun b => b.whenLive fun b => b.guard (n < 48) (·.admitFour n)

/-- CAM_FRAME_STALE_DROP (R261). -/
def execCamFrameStaleDrop (n : Nat) (s : State) : Host.Outcome State Fault Refusal :=
  s.upd fun b => b.whenLive fun b => b.guard (n < 48) (·.staleCheck n)

/-- The frame takes an image line. (DEDUCED, log entry 38) -/
def Block.storeLine (b : Block) (p s : Nat) (f : Frame) (bytes : List Byte) : Block :=
  let l : Line := { row := f.received, bytes := bytes, arrived := b.fk.fe.arrivals, done := false, onLane := none,
                    again := none }
  let b := b.setFk fun k => { k with fe := { k.fe with arrivals := k.fe.arrivals + 1 } }
  let b := b.modStr s fun x => x.modFrame f.id fun g =>
    { g with lines := g.lines ++ [l], received := g.received + 1,
             corrupt := g.corrupt || 8 * bytes.length != g.cfg.inW * dtBits g.cfg.dt }
  (b.lbPeak p).tally 0x07 p none bytes.length

/-- An image line of a stream (R253, R260): lost outside a frame, extra after IN_H, lost with its frame where the line
buffer has no room for it. -/
def Block.imageLine (b : Block) (p s dt : Nat) (bytes : List Byte) : Block :=
  match (b.str s).current with
  | none => b.guard (dt ≠ (b.str s).active.dt) (·.camUnsupp p)
  | some f =>
    if dt ≠ f.cfg.dt then b.camUnsupp p
    else if f.cfg.inH ≤ f.received then b.corrupt s
    else if 2 ^ 18 < b.lineUse p + bytes.length then b.dropFrame s f.id stOverflow
    else b.storeLine p s f bytes

/-- CAM_IMAGE_LINE (R251, R253, R260, Table 9.1). -/
def execCamImageLine (p vc dt : Nat) (bytes : List Byte) (s : State) : Host.Outcome State Fault Refusal :=
  s.upd fun b => b.camEvent p fun b => match b.camStream p vc with
    | some n => if isImageDt dt then b.imageLine p n dt bytes else b
    | none => b.camUnbound p

/-- FNO_MISMATCH (R253). -/
def Block.fnoCheck (b : Block) (s start wc : Nat) : Block := b.guard (start ≠ wc) (·.satAdd (CAM_STAT s) 8 8 1)

/-- A Frame End of a stream (R253). -/
def Block.frameEnd (b : Block) (s wc : Nat) : Block :=
  let x := b.str s
  match x.current with
  | some f =>
    let b := (b.fnoCheck s f.wc wc).modStr s fun x => x.modFrame f.id fun g => { g with ended := true }
    b.guard (f.corrupt || f.received < f.cfg.inH) (·.dropCorrupt s f)
  | none => match x.dropping with
    | some n => (b.fnoCheck s n wc).modStr s fun x => { x with dropping := none }
    | none => b

/-- CAM_FRAME_END (R251, R253). -/
def execCamFrameEnd (p vc wc : Nat) (s : State) : Host.Outcome State Fault Refusal :=
  s.upd fun b => b.camEvent p fun b => match b.camStream p vc with
    | some n => b.frameEnd n wc
    | none => b.camUnbound p

/-- A packet of an unbound virtual channel, or of a type that is not an image line of the stream (R251, Table 9.1):
frame and line boundaries, generic short packets, null, blanking and embedded data are discarded without a count, any
other code with one. -/
def Block.packetDiscard (b : Block) (p vc dt : Nat) : Block :=
  match b.camStream p vc with
  | none => b.camUnbound p
  | some s =>
    let declared := match (b.str s).current with
      | some f => f.cfg.dt
      | none => (b.str s).active.dt
    b.guard (!(dt < 0x04 || (0x08 ≤ dt && dt ≤ 0x12)) && dt ≠ declared) (·.camUnsupp p)

/-- CAM_PACKET_DISCARD (R251, Table 9.1). -/
def execCamPacketDiscard (p vc dt : Nat) (s : State) : Host.Outcome State Fault Refusal :=
  s.upd fun b => b.camEvent p (·.packetDiscard p vc dt)

/-- A header or payload error (R252): kind 0 a corrected header, 1 a discarded header, 2 a checksum failure. -/
def Block.headerError (b : Block) (p kind : Nat) (vc : Option Nat) : Block :=
  if kind = 0 then b.satAdd (CAM_PORT_HDR p) 16 16 1
  else if kind = 1 then (b.satAdd (CAM_PORT_HDR p) 0 16 1).corruptOn p vc
  else if kind = 2 then (b.satAdd (CAM_PORT_CRC p) 16 16 1).corruptOn p vc
  else b

/-- CAM_HEADER_ERROR (R252). -/
def execCamHeaderError (p kind : Nat) (vc : Option Nat) (s : State) : Host.Outcome State Fault Refusal :=
  s.upd fun b => b.camEvent p (·.headerError p kind vc)

/-- CAM_SOT_ERROR (R69, R252). -/
def execCamSotError (p : Nat) (inPacket : Bool) (vc : Option Nat) (s : State) : Host.Outcome State Fault Refusal :=
  s.upd fun b => b.camEvent p fun b => (b.satAdd (CAM_PORT_CRC p) 0 16 1).guard inPacket (·.corruptOn p vc)

/-! Port registers (R254). -/

/-- Clear the counters of a port; LB_PEAK takes the present LB_USED. -/
def Block.camClear (b : Block) (p : Nat) : Block :=
  ((((b.setReg (CAM_PORT_HDR p) 0).setReg (CAM_PORT_CRC p) 0).setReg (CAM_PORT_DISC p) 0)).wf (CAM_PORT_STAT p) 16 13
    (b.lbUsed p)

/-- A write of CAM_PORT_CFG (R254); one that would enable an absent port is ignored (R44). -/
def Block.camPortWrite (b : Block) (p : Nat) (data : Word) : Block :=
  let old := b.reg (CAM_PORT_CFG p)
  let form := if bit old 31 then bits old 28 3 else bits data 28 3
  if form = 7 ∨ (bit data 31 ∧ !b.camPresent p) then b
  else
    let b := b.setReg (CAM_PORT_CFG p) (BitVec.ofNat 32 (bits data 31 1 * 2 ^ 31 + form * 2 ^ 28))
    let b := b.guard (bit old 31 && !bit data 31) (·.each (portStreams p) Block.discardFrames)
    b.guard (bit data 27) (·.camClear p)

/-- CAM_PORT_CFG_WRITE (R251, R254). -/
def execCamPortCfgWrite (p : Nat) (data : Word) (s : State) : Host.Outcome State Fault Refusal :=
  s.upd fun b => b.guard (p < 12) fun b => b.portWrite (CAM_PORT_CFG p) data (·.camPortWrite p data)

/-- CAM_PORT_CLR (R254): a write with CLR. -/
def execCamPortClr (p : Nat) (data : Word) (s : State) : Host.Outcome State Fault Refusal :=
  s.upd fun b => b.guard (p < 12 && bit data 27) fun b => b.portWrite (CAM_PORT_CFG p) data (·.camPortWrite p data)

/-! Stream enable, disable and commit (R257, R258). -/

/-- The REFUSE code of an enable; 0 where no limit is broken (R257). -/
def Block.enableRefuse (b : Block) (s : Nat) : Nat :=
  let p := s / 4
  let on := (portStreams p).filter fun t => t ≠ s && b.strEn t
  let c := (b.str s).active
  if on.any fun t => b.camVc t == b.camVc s then 1
  else if 262144 < 3 * c.lineBytes + (on.map fun t => 3 * (b.str t).active.lineBytes).sum ||
      b.feStore < c.store + (((List.range 48).filter fun t => t ≠ s && b.strEn t).map fun t => (b.str t).active.store).sum then 2
  else if !(b.camPresent p && b.rb (CAM_PORT_CFG p) 31 && c.valid && c.buffers ≤ b.boomCount c.pool) then 3
  else 0

/-- A seed, or its default where it is 0. -/
def seedOr (v d : Nat) : Nat := if v = 0 then d else v

/-- The seeds of a stream's loops (R270, Table 9.3). The default exposure is clamped to [EXP_MIN, EXP_MAX]; which value
that is where the range is empty is not stated. (DEDUCED, log entry 39) -/
def Block.seeds (b : Block) (s : Nat) : Loop :=
  let m := tableBank b.fk.fe.tables s (b.rf (CAM_CTRL s) 29 1)
  let lo := tbExpMin m
  let hi := (b.str s).active.expMax
  { gainR := seedOr (b.rf (CAM_STR s 0x20) 16 16) 4096, gainB := seedOr (b.rf (CAM_STR s 0x20) 0 16) 4096,
    dgain := seedOr (b.rf (CAM_STR s 0x24) 16 16) 4096,
    exp := seedOr (b.rf (CAM_STR s 0x24) 0 16) (if lo ≤ hi then max lo (min hi 10000) else b.fresh % 65536), skip := 0,
    seeds := true }

/-- EN goes from 0 to 1, or is refused (R257). -/
def Block.enableStream (b : Block) (s : Nat) : Block :=
  let r := b.enableRefuse s
  if r = 0 then
    let b := ((b.modStr s fun x => { x with loop := b.seeds s, started := 0, dropping := none }).used).wf (CAM_CTRL s) 31 1 1
    let b := (b.setReg (CAM_DROPS s) 0).setReg (CAM_STR s 0x34) 0
    b.wf (CAM_STAT s) 8 24 0
  else b.wf (CAM_STAT s) 6 2 r

/-- COMMIT is requested where the write asks for it and none is pending. -/
def Block.requestCommit (b : Block) (s : Nat) (data : Word) : Block := b.guard (bit data 30) (·.wf (CAM_CTRL s) 30 1 1)

/-- A write of CAM_STR_CTRL (R257, R258). (DEDUCED, log entry 43) -/
def Block.camCtrlWrite (b : Block) (s : Nat) (data : Word) : Block :=
  if b.strEn s then
    if bit data 31 then b.requestCommit s data
    else (((b.wf (CAM_CTRL s) 31 1 0).discardFrames s).requestCommit s data).applyCommit s
  else
    let b := ((b.wf (CAM_CTRL s) 0 4 (bits data 0 4)).requestCommit s data).applyCommit s
    b.guard (bit data 31) (·.enableStream s)

/-- CAM_STREAM_ENABLE (R257, R270): a write with EN 1. -/
def execCamStreamEnable (n : Nat) (data : Word) (s : State) : Host.Outcome State Fault Refusal :=
  s.upd fun b => b.guard (n < 48 && bit data 31) fun b => b.portWrite (CAM_CTRL n) data (·.camCtrlWrite n data)

/-- CAM_STREAM_DISABLE (R257): a write with EN 0. -/
def execCamStreamDisable (n : Nat) (data : Word) (s : State) : Host.Outcome State Fault Refusal :=
  s.upd fun b => b.guard (n < 48 && !bit data 31) fun b => b.portWrite (CAM_CTRL n) data (·.camCtrlWrite n data)

/-- CAM_STREAM_COMMIT (R258): a write with COMMIT 1. -/
def execCamStreamCommit (n : Nat) (data : Word) (s : State) : Host.Outcome State Fault Refusal :=
  s.upd fun b => b.guard (n < 48 && bit data 30) fun b => b.portWrite (CAM_CTRL n) data (·.camCtrlWrite n data)

/-! The pipeline-table window (R268). -/

/-- The place of the table byte that an offset of the window shows; none while CAM_TBL_SEL selects no stream. -/
def Block.tableKey (b : Block) (o : Nat) : Option Nat :=
  let s := b.rf CAM_TBL_SEL 0 6
  if s < 48 then some (s * 2048 + b.rf CAM_TBL_SEL 8 1 * 1024 + (o - 0x1E000) / 4 * 4) else none

/-- The selected bank is the active one of an enabled stream. -/
def Block.tableLocked (b : Block) : Bool :=
  let s := b.rf CAM_TBL_SEL 0 6
  b.strEn s && b.rf CAM_TBL_SEL 8 1 == b.rf (CAM_CTRL s) 29 1

/-- Store bytes of a table, their unused bits 0. -/
def tableStore (m : SMap Byte) (k : Nat) : List Byte → SMap Byte
  | [] => m
  | v :: vs => tableStore (SMap.set tableByte m k (v &&& tableMask (k % 1024))) (k + 1) vs

/-- A write through the window. -/
def Block.camTableWrite (b : Block) (o : Nat) (data : Word) : Block :=
  match b.tableKey o with
  | none => b
  | some k => b.guard (!b.tableLocked) fun b =>
      b.setFk fun f => { f with fe := { f.fe with tables := tableStore f.fe.tables k (leBytes 4 data.toNat) } }

/-- CAM_TABLE_WRITE (R268). -/
def execCamTableWrite (off : BitVec 20) (data : Word) (s : State) : Host.Outcome State Fault Refusal :=
  s.upd fun b => b.guard (isTableWindow off.toNat) fun b =>
    b.portWrite off.toNat data (·.camTableWrite off.toNat data)

/-! The front end (R263 to R265). -/

/-- A line that a lane works on or may take: its stream, its frame and its row, its arrival and its pixels. -/
structure LineRef where
  s : Nat
  id : Nat
  row : Nat
  arrived : Nat
  pixels : Nat
  deriving DecidableEq, Repr

/-- A line is ready (R260, R263); `lane` is a lane whose fault discarded its output last and that must not take it. -/
def Frame.lineReady (f : Frame) (lane : Option Nat) (l : Line) : Bool :=
  f.admitted && !l.done && l.onLane.isNone && (f.ended || f.lines.any fun m => m.row == l.row + 1) &&
    (lane.isNone || l.again ≠ lane)

/-- The ready lines of a port. -/
def Block.readyLines (b : Block) (p : Nat) (lane : Option Nat) : List LineRef :=
  (portStreams p).flatMap fun s => (b.str s).frames.flatMap fun f =>
    (f.lines.filter (f.lineReady lane)).map fun l =>
      { s := s, id := f.id, row := l.row, arrived := l.arrived, pixels := f.cfg.inW }

/-- The oldest of lines. -/
def oldestLine : List LineRef → Option LineRef
  | [] => none
  | x :: xs => match oldestLine xs with
    | some y => if y.arrived < x.arrived then some y else some x
    | none => some x

/-- The quantum of a port: 64 × the sum of RATE of its enabled streams (R263). -/
def Block.quantum (b : Block) (p : Nat) : Nat :=
  64 * (((portStreams p).filter b.strEn).map fun s => max 1 (b.rf (CAM_STR s 0x18) 0 16)).sum

/-- Deficit round robin (R263), up to `fuel` visits. A port whose ready lines are all barred from the lane is passed over
with its deficit kept. (DEDUCED, log entry 44) -/
def Block.pickLine (b : Block) (lane : Nat) : Nat → FrontEnd → Option (LineRef × FrontEnd)
  | 0, _ => none
  | fuel + 1, fe =>
    let p := fe.nextPort
    let d := SMap.get zeroNat fe.deficit p
    match oldestLine (b.readyLines p (some lane)) with
    | none =>
      let kept := if (b.readyLines p none).isEmpty then 0 else d
      b.pickLine lane fuel { fe with deficit := SMap.set zeroNat fe.deficit p kept, nextPort := (p + 1) % 12 }
    | some x =>
      if d < x.pixels then
        b.pickLine lane fuel { fe with deficit := SMap.set zeroNat fe.deficit p (d + b.quantum p), nextPort := (p + 1) % 12 }
      else some (x, { fe with deficit := SMap.set zeroNat fe.deficit p (d - x.pixels) })

/-- The line that a lane works on. -/
def Block.lineOn (b : Block) (lane : Nat) : Option LineRef :=
  (SMap.keys b.fk.cam).findSome? fun s => (b.str s).frames.findSome? fun f =>
    (f.lines.find? fun l => l.onLane == some lane).map fun l =>
      { s := s, id := f.id, row := l.row, arrived := l.arrived, pixels := f.cfg.inW }

/-- Change a line. -/
def Block.modLine (b : Block) (x : LineRef) (f : Line → Line) : Block :=
  b.modStr x.s fun t => t.modFrame x.id fun g =>
    { g with lines := g.lines.map fun l => if l.row = x.row then f l else l }

/-- The search of a free lane while no port has a ready line: each port is visited, and its deficit ends at 0 (R263).
Where the search stands after whole rounds is where it began. (DEDUCED, log entry 44) -/
def Block.idleSpell (b : Block) : Block :=
  b.guard ((List.range 12).all fun p => (b.readyLines p none).isEmpty) fun b =>
    b.setFk fun k => { k with fe := { k.fe with deficit := [] } }

/-- A free lane takes a line. Every port is visited often enough for the widest line (8,192 pixels at a quantum of 64).
(DEDUCED, log entry 44) -/
def Block.linePick (b : Block) (lane : Nat) : Block :=
  b.guard (lane < 9 && b.ao.lanes.getLsbD lane && (b.lineOn lane).isNone) fun b =>
    if (List.range 12).any fun p => !(b.readyLines p (some lane)).isEmpty then
      match b.pickLine lane 1600 b.fk.fe with
      | some r => (b.setFk fun k => { k with fe := r.2 }).modLine r.1 fun l => { l with onLane := some lane }
      | none => b
    else b.idleSpell

/-- FE_LINE_PICK (R263). -/
def execFeLinePick (lane : Nat) (s : State) : Host.Outcome State Fault Refusal :=
  s.upd fun b => b.whenLive (·.linePick lane)

/-- Write bytes into boom buffers, one after another. -/
def Block.bufWrite (b : Block) (keys : List Nat) (xs : List Byte) : Block :=
  match keys with
  | [] => b
  | key :: rest =>
    let size := boomSize (keyBoom key)
    let x := b.boomBase (keyBoom key) + keyIndex key * size
    let b := if keyPlace key = landPlace then b.lwrite x (xs.take size) else b.swrite (keyPlace key) x (xs.take size)
    b.bufWrite rest (xs.drop size)

/-- The loops update when a frame with VALID = 1 completes (R270 to R272). (DEDUCED, log entry 39)
(DESIGN CHOICE, log entry 41) -/
def Block.runLoops (b : Block) (s : Nat) (f : Frame) (hist : List Nat) (zs : List ZoneSum) : Block :=
  let l := (b.str s).loop
  let l := if f.cfg.awbEn && f.cfg.dt ≠ 0x1E then awb l zs else l
  let b := b.modStr s fun x => { x with loop := l }
  if !f.cfg.aeEn then b
  else if 0 < l.skip then b.modStr s fun x => { x with loop := { l with skip := l.skip - 1 } }
  else
    let t :=
      if aeStated (tbExpMin f.table) f.cfg.expMax (tbDgainMax f.table) hist then
        aeTarget l f.cfg.tgtY (tbExpMin f.table) f.cfg.expMax (tbDgainMax f.table) hist
      else (b.fresh % 65536, b.fresh / 65536 % 65536)
    let b := b.used
    if t.1 = l.exp ∧ t.2 = l.dgain then b
    else
      let b := b.modStr s fun x => { x with loop := { l with exp := t.1, dgain := t.2, skip := tbAeDelay f.table, seeds := false } }
      (b.wf (CAM_AE_CHG0 + 4 * (s / 32)) (s % 32) 1 1).causeIntake 2

/-- A frame completes (R265, R269, R270): its planes lie in its buffers, its record is final, its lines are gone.
(DEDUCED, log entry 39) -/
def Block.completeFrame (b : Block) (s : Nat) (f : Frame) : Block :=
  let hist := f.hist
  let zs := f.zones b.fresh
  let p0 := f.planeData 0 b.used.fresh
  let p1 := f.planeData 1 b.used.used.fresh
  let n := cdiv p0.length (boomSize f.cfg.pool)
  let b := ((b.used.used.used).bufWrite (f.bufs.take n) p0).bufWrite (f.bufs.drop n) p1
  let b := b.modStr s fun x => x.modFrame f.id fun g =>
    { g with complete := true, lines := [], written := p0.length + p1.length, record := f.statistics hist zs }
  if f.fno = 0 then b else b.runLoops s f hist zs

/-- TRANSIENT of CAM_FE_LANES. -/
def Block.laneTransient (b : Block) (lane : Nat) : Block :=
  (b.satAdd CAM_FE_LANES 16 8 1).logTransient (unitId 0x5 (16 + lane)) 5 0

def Block.setFaulted (b : Block) (lane : Nat) (v : Bool) : Block :=
  b.setFk fun k => { k with fe := { k.fe with faulted := SMap.set noneIn k.fe.faulted lane v } }
def Block.setCharged (b : Block) (lane : Nat) (v : Bool) : Block :=
  b.setFk fun k => { k with fe := { k.fe with charged := SMap.set noneIn k.fe.charged lane v } }

/-- A lane goes out of service; the spare takes the place of the first, and a later one finds it spent (R33, R264, Tables
1.9 and 1.10). (DEDUCED, log entry 44) (DEDUCED, log entry 66) -/
def Block.laneOut (b : Block) (lane : Nat) : Block :=
  let spare := b.ao.lanesOut = 0 && lane ≠ 8
  let b := b.setAo fun a =>
    { a with lanes := (if spare then setBits a.lanes 8 1 1 else a.lanes) &&& ~~~(BitVec.ofNat 9 (2 ^ lane)),
             lanesOut := a.lanesOut + 1 }
  let b := b.wf SPR_INVENTORY 25 1 0
  b.markOff.causeFault (if spare then 2 else 3)

/-- The lane that works on no line is charged; else its line is given up, and a second faulted line in a row puts the
lane out of service and the spare lane in (R264). (DEDUCED, log entry 44) -/
def Block.laneFault (b : Block) (lane : Nat) : Block :=
  match b.lineOn lane with
  | none => b.setCharged lane true
  | some x =>
    let b := (b.setCharged lane false).modLine x fun l => { l with onLane := none, again := some lane }
    if SMap.get noneIn b.fk.fe.faulted lane then
      ((b.setFaulted lane false).laneOut lane |>.logLasting (unitId 0x5 (16 + lane)) 0 5 0).causeIntake 3
    else b.setFaulted lane true

/-- A lane in service of a part whose units run. -/
def Block.laneIn (b : Block) (lane : Nat) : Bool := lane < 9 && b.ao.lanes.getLsbD lane

/-- PIXEL_LANE_FAULT (R264). -/
def execPixelLaneFault (lane : Nat) (s : State) : Host.Outcome State Fault Refusal :=
  s.upd fun b => b.whenLive fun b => b.guard (b.laneIn lane) (·.laneFault lane)

/-- The line of a lane is processed (R260, R264, R265). (DEDUCED, log entry 44) -/
def Block.lineDone (b : Block) (lane : Nat) : Block :=
  match b.lineOn lane with
  | none => b
  | some x =>
    if SMap.get noneIn b.fk.fe.charged lane then b.laneFault lane
    else
      let b := b.setFaulted lane false
      match b.frameOf x.s x.id with
      | none => b
      | some f =>
        let b := match (f.lines.find? fun l => l.row == x.row) with
          | some l => match l.again with
            | some bad => b.laneTransient bad
            | none => b
          | none => b
        let b := b.modLine x fun l => { l with done := true, onLane := none }
        match b.frameOf x.s x.id with
        | none => b
        | some g => b.guard (g.ended && g.lines.all fun l => l.done) (·.completeFrame x.s g)

/-- FE_LINE_DONE (R265). -/
def execFeLineDone (lane : Nat) (s : State) : Host.Outcome State Fault Refusal :=
  s.upd fun b => b.whenLive fun b => b.guard (b.laneIn lane) (·.lineDone lane)

end Sys2Proof.Machine
end

