-- ==== Sys2Proof/Machine/Take.lean ====
section
/-! DEFINITION. TAKE (9.6): its parameter block, the walk over the entries of a stream, and the copy. -/

namespace Sys2Proof.Machine

/-- STREAM, PART, RELEASE, SKIP and WAIT_US of a TAKE parameter block (Table 9.9). -/
def tkStream (pb : BitVec 512) : Nat := bits pb 0 6
def tkPart (pb : BitVec 512) : Nat := bits pb 8 2
def tkRelease (pb : BitVec 512) : Bool := bit pb 12
def tkSkip (pb : BitVec 512) : Bool := bit pb 13
def tkX (pb : BitVec 512) : Int := sext 32 (pbW pb 1)
def tkY (pb : BitVec 512) : Int := sext 32 (pbW pb 2)
def tkWait (pb : BitVec 512) : Nat := pbW pb 3

/-- R156 check 4 for TAKE (R275): what does not depend on the frame. -/
def Block.acceptTake (b : Block) (c : Cmd) : Option Nat :=
  if pbW c.pb 0 / 2 ^ 14 = 0 ∧ bits c.pb 10 2 = 0 ∧ bits c.pb 6 2 = 0 ∧ pbRest c.pb 4 ∧ tkPart c.pb ≠ 3 ∧
      (c.op = .takeRegion ∨ (pbW c.pb 1 = 0 ∧ pbW c.pb 2 = 0)) ∧ tkStream c.pb < 48 ∧ b.camPresent (tkStream c.pb / 4) ∧
      dSpace c.ta = 1 ∧
      (tkPart c.pb ≠ 2 ∨ (dType c.ta = 0x01 ∧ dRank c.ta = 1 ∧ viewExt c.ta 0 = 2112)) then none
  else some stMalformed

/-- The element type of a plane: UINT8 or UINT16. -/
def planeType (e : Nat) : Nat := if e = 1 then 0x01 else 0x03

/-- The frame fits the TAKE (R275). -/
def takeFits (c : Cmd) (f : Frame) : Bool :=
  tkPart c.pb == 2 ||
  (match f.cfg.plane (tkPart c.pb) with
   | none => false
   | some (k, w, h, e) =>
     dType c.ta == planeType e && viewExt c.ta 0 == k && viewExt c.ta 3 == 1 && viewExt c.ta 4 == 1 && viewExt c.ta 5 == 1 &&
       (c.op == .takeRegion || (viewExt c.ta 1 == w && viewExt c.ta 2 == h)))

/-- The byte at an offset of boom buffers that lie one after another. -/
def Block.bufGet (b : Block) (keys : List Nat) (i : Nat) : Byte :=
  match keys with
  | [] => 0
  | key :: rest =>
    let size := boomSize (keyBoom key)
    if i < size then
      let x := b.boomBase (keyBoom key) + keyIndex key * size + i
      if keyPlace key = landPlace then b.lget x else b.sget (keyPlace key) x
    else b.bufGet rest (i - size)

/-- The boom buffers of a plane. -/
def Frame.planeBufs (f : Frame) (part : Nat) : List Nat :=
  let n := cdiv (f.cfg.planeBytes 0) (boomSize f.cfg.pool)
  if part = 0 then f.bufs.take n else f.bufs.drop n

/-- The code that TA's view index takes: the plane's element, FILL outside the plane (R174, R275), or the record's
byte. -/
def Block.takeCode (b : Block) (c : Cmd) (f : Frame) (v : List Nat) : Nat :=
  if tkPart c.pb = 2 then byteAt f.record (ix v 0)
  else match f.cfg.plane (tkPart c.pb) with
    | none => fillCode c.ta
    | some (k, w, h, e) =>
      let x := (if c.op = .takeRegion then tkX c.pb else 0) + (ix v 1 : Int)
      let y := (if c.op = .takeRegion then tkY c.pb else 0) + (ix v 2 : Int)
      if 0 ≤ x ∧ x < w ∧ 0 ≤ y ∧ y < h then
        leNat (readBytes (b.bufGet (f.planeBufs (tkPart c.pb))) (((y.toNat * w + x.toNat) * k + ix v 0) * e) e)
      else fillCode c.ta

/-- The result of a TAKE above its status (Table 9.10). -/
def takeResult (fno : Nat) (noFrame : Bool) (skipped : Nat) : BitVec 56 :=
  BitVec.ofNat 56 (fno % 2 ^ 32 * 2 ^ 24 + b2n noFrame * 2 ^ 8 + min 255 skipped)

/-- SKIPPED so far. -/
def Cmd.skipped (c : Cmd) : Nat := c.scratch.headD 0

/-- A TAKE ends. -/
def Block.takeEnd (b : Block) (id : Nat) (c : Cmd) (st fno : Nat) (noFrame : Bool) : Block :=
  (b.setCmd id { c with result := takeResult fno noFrame c.skipped }).finish id st

/-- The copy (R275, R276): the frame is marked as taken, and released where RELEASE asks for it and the copy is DONE. -/
def Block.takeCopy (b : Block) (id : Nat) (c : Cmd) (s : Nat) (f : Frame) : Block :=
  let c := { c with result := takeResult f.fno false c.skipped }
  let b := b.modStr s fun x => x.modFrame f.id fun g => { g with taken := true }
  let b := b.deliverAll id c (fun x =>
    some (if inStore c.ta x.s then b.takeCode c f (viewIx c.ta x.s) / 256 ^ x.part % 256 else fillByte c.ta x)) stDone
  b.guard (tkRelease c.pb && (match b.findCmd id with
    | some e => e.phase == .finished stDone
    | none => false)) (·.releaseFrame s f.id)

/-- The complete stale frames at the head of a queue. -/
def Block.staleRun (b : Block) (s : Nat) : List Entry → List Frame
  | .frame f :: es => if f.complete && b.isStale s f then f :: b.staleRun s es else []
  | _ => []

/-- One turn of the loop of R276; none where the TAKE has ended or waits. -/
def Block.takeTurn (b : Block) (id : Nat) (c : Cmd) : Block × Bool :=
  let s := tkStream c.pb
  match (b.str s).entries with
  | [] => if b.strEn s then (b, false) else (b.takeEnd id c stStale 0xFFFFFFFF true, false)
  | .drops n len st :: rest =>
    let b := b.modStr s fun x => { x with entries := rest }
    let c := { c with scratch := [c.skipped + len] }
    if tkSkip c.pb then (b.setCmd id { c with result := takeResult 0xFFFFFFFF false c.skipped }, true)
    else (b.takeEnd id c st n false, false)
  | .frame f :: rest =>
    if !f.complete then (b, false)
    else if f.lost then (b.dropFrame s f.id stCorrupt, true)
    else if !f.taken && b.isStale s f then
      (b.each (b.staleRun s (.frame f :: rest)) fun b g => b.dropFrame s g.id stStale, true)
    else if takeFits c f then (b.takeCopy id c s f, false)
    else (b.takeEnd id c stMalformed f.fno false, false)

/-- The loop of R276: an entry is left at each turn, so that twice their number of turns is enough. -/
def Block.takeLoop (b : Block) (id : Nat) : Nat → Block
  | 0 => b
  | fuel + 1 => match b.findCmd id with
    | none => b
    | some c =>
      let r := b.takeTurn id c
      if r.2 then r.1.takeLoop id fuel else r.1

/-- The work of a TAKE: the first of its stream's TAKEs (R277). -/
def takeRow (op : TOp) (id : Nat) (b : Block) : Block :=
  b.workOn id (fun c => c.op == op) fun c b => b.guard (b.firstOf id c) fun b =>
    b.takeLoop id (2 * ((b.str (tkStream c.pb)).entries.length + 1))

/-- TAKE.FRAME (R275, R276). -/
def execTakeFrame (t : TStep) (s : State) : Host.Outcome State Fault Refusal :=
  s.upd (tensorRow specTakeFrame (some 0) (takeRow .takeFrame) t)
/-- TAKE.REGION (R275, R276). -/
def execTakeRegion (t : TStep) (s : State) : Host.Outcome State Fault Refusal :=
  s.upd (tensorRow specTakeRegion (some 1) (takeRow .takeRegion) t)

/-- The head of a stream's queue is nothing that a TAKE can act on. -/
def CamStream.waits (x : CamStream) : Bool :=
  match x.entries with
  | [] => true
  | .drops _ _ _ :: _ => false
  | .frame f :: _ => !f.complete

/-- TAKE_WAIT_TIMEOUT (R276): the TAKE has waited for WAIT_US. -/
def execTakeWaitTimeout (id : Nat) (s : State) : Host.Outcome State Fault Refusal :=
  s.upd fun b => b.whenLive fun b =>
    b.workOn id (fun c => (c.op == .takeFrame || c.op == .takeRegion) && tkWait c.pb ≠ 0) fun c b =>
      b.guard (b.firstOf id c && (b.str (tkStream c.pb)).waits) (·.takeEnd id c stStale 0xFFFFFFFF true)

end Sys2Proof.Machine
end

