-- ==== Sys2Proof/Machine/Codec.lean ====
section
/-! DEFINITION. Codec sessions (10.1 to 10.4): the checks of a CODEC command, the pipes, OPEN and CLOSE, the reference pool and its buffers. -/

namespace Sys2Proof.Machine

/-! Fields. -/

def ssCodec (s : Session) : Nat := bits s.cfg 30 2
def ssEnc (s : Session) : Bool := bit s.cfg 29
def ssDepth10 (s : Session) : Bool := bit s.cfg 28
def ssRefs (s : Session) : Nat := bits s.cfg 24 4
def ssSliceRows (s : Session) : Nat := bits s.cfg 16 8
def ssEntries (s : Session) : Nat := bits s.cfg 8 8
def ssW (s : Session) : Nat := bits s.cfg 32 16
def ssH (s : Session) : Nat := bits s.cfg 48 16
def ssGop (s : Session) : Nat := bits s.cfg 96 32
/-- Bytes of a sample. -/
def ssBytes (s : Session) : Nat := if ssDepth10 s then 2 else 1

def Block.sess (b : Block) (n : Nat) : Option Session := SMap.find b.fk.codec.sessions n
def Block.setSess (b : Block) (n : Nat) (x : Session) : Block :=
  b.setFk fun k => { k with codec := { k.codec with sessions := SMap.put k.codec.sessions n x } }

/-- The translation context of a command's job. -/
def Block.ctxOfCmd (b : Block) (c : Cmd) : Option Nat := (b.findJob c.job).map (·.ctx)

/-- A command ends with a result word. -/
def Block.endWith (b : Block) (id : Nat) (c : Cmd) (st : Nat) (result : Nat) : Block :=
  (b.setCmd id { c with result := BitVec.ofNat 56 result }).finish id st

/-! Acceptance (R279). -/

/-- A byte string operand: UINT8, RANK 1, SPACE 1. -/
def byteString (d : Desc) : Bool := dType d == 0x01 && dRank d == 1 && dSpace d == 1

/-- Words of the parameter block that the command leaves reserved are 0, and its fields lie in their ranges
(Tables 10.1, 10.2, 10.8, 10.13). -/
def codecFields (pb : BitVec 512) : Bool :=
  let w := pbW pb
  bits pb 2 14 == 0 &&
  (match cdCmd pb, cdUnit pb with
   | 1, 0 => bits pb 0 2 == 0 && (cdNum pb < 32 || cdNum pb == 0x3F) && w 1 % 64 == 0 && pbRest pb 2
   | 1, 1 => bits pb 0 2 == 0 && (cdNum pb < 16 || cdNum pb == 0x3F) && pbRest pb 2
   | 2, 0 => bits pb 0 2 == 0 && cdNum pb < 32 && pbRest pb 1
   | 2, 1 => bits pb 0 2 == 0 && cdNum pb < 16 && pbRest pb 1
   | 3, 0 => bits pb 1 1 == 0 && cdNum pb < 32 && pbRest pb 3
   | 4, 0 => bits pb 1 1 == 0 && cdNum pb < 32 && w 3 % 4 == 0 && w 4 / 2 ^ 13 % 2 ^ 18 == 0 && w 7 / 2 % 2 ^ 7 == 0 &&
      pbRest pb 8
   | 5, 1 => bits pb 1 1 == 0 && cdNum pb < 16 && w 1 % 8 == 0 && w 2 < 64 && w 5 % 64 == 0 && pbRest pb 6
   | 6, 1 => bits pb 1 1 == 0 && cdNum pb < 16 && w 1 % 256 == 0 && w 1 / 2 ^ 20 == 0 && w 2 < 2 ^ 16 && pbRest pb 5
   | _, _ => false)

/-- The operands that the command reads or writes lie in SPACE 1, and its byte strings are UINT8 of RANK 1
(Table 10.2). -/
def codecOperands (c : Cmd) : Bool :=
  match cdCmd c.pb with
  | 3 => byteString c.ta && dSpace c.tb == 1
  | 4 => dSpace c.ta == 1 && byteString c.tb
  | 5 => byteString c.ta && dSpace c.tb == 1
  | 6 => byteString c.ta && byteString c.tb
  | _ => true

/-- The command reads TA and writes TB (Table 10.2). -/
def codecMoves (pb : BitVec 512) : Bool := 3 ≤ cdCmd pb && cdCmd pb ≤ 6

/-- Every row of a chroma region lies in the ranges of R142. -/
def Block.chromaOk (b : Block) (c : Cmd) (a stride rows bytes : Nat) : Bool :=
  (List.range rows).all fun y => (b.cmdLocal c (a + y * stride) bytes).isSome

/-- The OUT_C region of a decode on session `n` lies in the ranges of R142 (R297); a JPEG session and one that is not
open have none. -/
def Block.outOk (b : Block) (c : Cmd) (n outC stride : Nat) : Bool :=
  match b.sess n with
  | some s => ssCodec s == 2 || b.chromaOk c outC stride (cdiv (ssH s) 2) (2 * cdiv (ssW s) 2 * ssBytes s)
  | none => true

/-- R156 check 4 for CODEC (R187, R279, R297). -/
def Block.acceptCodec (b : Block) (c : Cmd) : Option Nat :=
  if !(codecFields c.pb && codecOperands c) then some stMalformed
  else if codecMoves c.pb && (overlapOf c.tb c.ta).2 ≠ 0 then some stOverlap
  else if cdCmd c.pb = 3 && !b.outOk c (cdNum c.pb) (pbW c.pb 1) (pbW c.pb 2) then some stProtect
  else none

/-! Pipes (R281, R286). -/

/-- The kind of pipe that a command needs, and how many there are; none where it needs none (Table 10.4). -/
def Block.pipeKind (b : Block) (c : Cmd) : Option (Nat × Nat) :=
  match cdCmd c.pb with
  | 3 => match b.sess (cdNum c.pb) with
    | some s => if ssCodec s = 2 then some (2, 1) else some (0, 4)
    | none => some (0, 4)
  | 4 => some (1, 2)
  | 5 => some (3, 4)
  | 6 => some (3, 4)
  | _ => none

/-- The sessions that a command names: its own, and that of a chained RNEXT. -/
def Cmd.namesSession (c : Cmd) (n : Nat) : Bool :=
  c.unit == .session n || (cdCmd c.pb == 5 && bit c.pb 0 && bits c.pb 64 6 == n)

/-- The command is the next of its unit, and no command accepted before it and not over names a session that it names
(R281). (DEDUCED, log entry 48) -/
def Block.codecNext (b : Block) (id : Nat) (c : Cmd) : Bool :=
  b.firstOf id c && b.fk.cmds.all fun e =>
    !(e.2.op == .codec && e.2.phase == .accepted && e.2.order < c.order &&
      (List.range 64).any fun n => c.namesSession n && e.2.namesSession n)

/-- A command takes a pipe of its kind: one is free, and no command accepted earlier waits for one. -/
def Block.pipeStart (b : Block) (id : Nat) (c : Cmd) : Block :=
  match b.pipeKind c with
  | none => b
  | some (kind, n) =>
    let same := b.cmdsOf fun e => e.op == .codec && e.phase == .accepted && (b.pipeKind e).map (·.1) == some kind
    let busy := (same.filter fun e => e.2.active).length
    let ahead := same.any fun e => !e.2.active && e.2.order < c.order && b.codecNext e.1 e.2
    b.guard (!c.active && b.codecNext id c && busy < n && !ahead) fun b => b.setCmd id { c with active := true }

/-- CODEC_PIPE_START (R286). -/
def execCodecPipeStart (id : Nat) (s : State) : Host.Outcome State Fault Refusal :=
  s.upd fun b => b.whenLive fun b => b.workOn id (fun c => c.op == .codec) fun c b => b.pipeStart id c

/-- The work of a CODEC command: it is the next of its unit, and it has its pipe. -/
def codecRow (cmd : Nat) (work : Nat → Cmd → Block → Block) (id : Nat) (b : Block) : Block :=
  b.workOn id (fun c => c.op == .codec && cdCmd c.pb == cmd) fun c b =>
    b.guard (b.codecNext id c && (c.active || (b.pipeKind c).isNone)) fun b => work id c b

/-! OPEN and CLOSE (R280, R282, R285, R287). -/

/-- The fields of an open block lie in their ranges (Table 10.6, R285). -/
def openOk (s : Session) (tail : List Byte) : Bool :=
  let w := ssW s
  let h := ssH s
  let sy := bits s.cfg 80 16
  let sx := bits s.cfg 64 16
  let sb := cdiv h 64
  ssCodec s ≠ 3 && bits s.cfg 0 8 == 0 && w % 2 == 0 && h % 2 == 0 && 64 ≤ w && w ≤ 8192 && 64 ≤ h && h ≤ 8192 &&
  w * h ≤ 8912896 &&
  (if ssCodec s = 2 then !ssEnc s && ssEntries s == 0 else 2 ≤ ssEntries s && ssEntries s ≤ 17) &&
  (if ssEnc s then
    w % 8 == 0 && h % 8 == 0 && 1 ≤ ssRefs s && ssRefs s ≤ 4 && 16 ≤ sy && sy ≤ 128 && 16 ≤ sx && sx ≤ 256 &&
      (ssCodec s ≠ 1 || ssSliceRows s == 0 || cdiv sb 64 ≤ ssSliceRows s)
   else ssRefs s == 0 && sy == 0 && sx == 0) &&
  (tail.drop (12 * ssEntries s)).all fun x => x == 0

/-- Bytes that a pool entry's Y, C and AUX buffers need (R287). -/
def poolNeed (s : Session) : List Nat :=
  let w := ssW s
  let h := ssH s
  let y := cdiv w 8 * 8 * (cdiv h 8 * 8) * ssBytes s
  [y, y / 2, 16 * cdiv w 16 * cdiv h 16 + (if ssEnc s then cdiv w 2 * cdiv h 2 + cdiv w 4 * cdiv h 4 else 0)]

/-- The boom buffer of the job that starts at a local address of a thread's space. -/
def Block.jobBuf (b : Block) (c : Cmd) (a : Nat) : Option Nat :=
  (heldBy b (.job c.job)).find? fun key =>
    b.bufAddr key == a && (keyPlace key == landPlace || keyPlace key == standOf c.thread)

/-- The buffers that an open block names, three an entry; none where an address fails R287. -/
def Block.poolKeys (b : Block) (c : Cmd) (s : Session) (tail : List Byte) : Option (List Nat) :=
  ((List.range (3 * ssEntries s)).mapM fun i =>
    match b.jobBuf c (leNat ((tail.drop (4 * i)).take 4)) with
    | some key => if (poolNeed s).getD (i % 3) 0 ≤ boomSize (keyBoom key) then some key else none
    | none => none).bind fun ks => if ks.eraseDups.length = ks.length then some ks else none

/-- The entries of a pool, each FREE. -/
def poolOf : List Nat → List PoolEntry
  | y :: c :: aux :: rest => { y := y, c := c, aux := aux, mark := .free, order := 0, poc := 0 } :: poolOf rest
  | _ => []

/-- The number that an OPEN opens: the explicit one where it is free, the lowest free one with 0x3F; else the status of
the refusal. -/
def openNumber (pb : BitVec 512) (n : Nat) (isOpen : Nat → Bool) : Except Nat Nat :=
  if cdNum pb ≠ 0x3F then (if isOpen (cdNum pb) then .error stMalformed else .ok (cdNum pb))
  else match (List.range n).find? fun i => !isOpen i with
    | some i => .ok i
    | none => .error stBoomEmpty

/-- An OPEN that ends without opening (R280). (DEDUCED, log entry 48) -/
def Block.openRefused (b : Block) (id : Nat) (c : Cmd) (st : Nat) : Block :=
  let b := if st = stBoomEmpty then (b.satAdd CDC_STAT 16 16 1).causeIntake 4 else b
  b.endWith id c st (cdNum c.pb * 2 ^ 8)

/-- Clear the counters of a session when it is opened (R304). -/
def Block.clearSess (b : Block) (n : Nat) : Block :=
  ((b.setReg (CDC_SESS n 0x4) 0).setReg (CDC_SESS n 0x8) 0).setReg (CDC_SESS n 0xC) 0

/-- OPEN of a session. -/
def Block.openSession (b : Block) (id : Nat) (c : Cmd) : Block :=
  match b.cmdLocal c (pbW c.pb 1) 256, b.ctxOfCmd c with
  | some l, some ctx =>
    let bs := b.locRead l 256
    let s : Session :=
      { cfg := BitVec.ofNat 512 (leNat (bs.take 64)), ctx := ctx, home := 0xF, pool := [], bufs := [], decoded := 0,
        sinceIdr := 0, needIdr := true, firstGop := true, lastQpInit := none, lastIdr := none, lastP := none,
        kept := 0, slots := List.replicate 8 none, begun := false, skipRasl := false }
    if !openOk s (bs.drop 16) then b.openRefused id c stMalformed
    else match openNumber c.pb 32 fun n => (b.sess n).isSome with
      | .error st => b.openRefused id c st
      | .ok n => match b.poolKeys c s (bs.drop 16) with
        | none => b.openRefused id c stMalformed
        | some ks =>
          let home := if ks.any fun key => keyPlace key ≠ landPlace then standOf c.thread else 0xF
          let b := b.setFk fun k => { k with booms := { k.booms with
            held := ks.foldl (fun m key => SMap.put m key (.session n)) k.booms.held } }
          ((b.setSess n { s with home := home, pool := poolOf ks, bufs := ks }).clearSess n).endWith id c stDone (n * 2 ^ 8)
  | _, _ => b.openRefused id c stProtect

/-- OPEN of a record stream: which SEQ is expected first is not stated. (DEDUCED, log entry 49) -/
def Block.openRecords (b : Block) (id : Nat) (c : Cmd) : Block :=
  match openNumber c.pb 16 fun n => (SMap.find b.fk.codec.records n).isSome, b.ctxOfCmd c with
  | .ok n, some ctx =>
    let b := b.setFk fun k => { k with codec := { k.codec with
      records := SMap.put k.codec.records n ctx, firstRec := SMap.set noneIn k.codec.firstRec n true } }
    let b := (b.setReg (CDC_REC n 0x4) (BitVec.ofNat 32 (pbW c.pb 1))).setReg (CDC_REC n 0x8) (BitVec.ofNat 32 b.fresh)
    ((b.used).setReg (CDC_REC n 0xC) 0).endWith id c stDone (n * 2 ^ 8)
  | .error st, _ => b.openRefused id c st
  | _, none => b.openRefused id c stProtect

/-- The work of an OPEN (R280). -/
def openWork (id : Nat) (c : Cmd) (b : Block) : Block :=
  if cdUnit c.pb = 0 then b.openSession id c else b.openRecords id c

/-- CODEC OPEN (R280). -/
def execCodecOpen (t : TStep) (s : State) : Host.Outcome State Fault Refusal :=
  s.upd (tensorRow specCodec (some 0) (codecRow 1 openWork) t)

/-- Close a session: its buffers return to their booms (R282, R283). -/
def Block.closeSession (b : Block) (n : Nat) : Block :=
  match b.sess n with
  | none => b
  | some s => (b.setFk fun k => { k with codec := { k.codec with sessions := SMap.erase k.codec.sessions n } }).giveBack s.bufs

/-- Close a record stream. -/
def Block.closeRecords (b : Block) (n : Nat) : Block :=
  b.setFk fun k => { k with codec := { k.codec with records := SMap.erase k.codec.records n } }

/-- The context of the unit that a command names; none where it is not open. -/
def Block.unitCtx (b : Block) (c : Cmd) : Option Nat :=
  if cdUnit c.pb = 0 then (b.sess (cdNum c.pb)).map (·.ctx) else SMap.find b.fk.codec.records (cdNum c.pb)

/-- The unit is open and belongs to the job's context; else the status (R280). -/
def Block.unitStatus (b : Block) (c : Cmd) : Option Nat :=
  match b.unitCtx c with
  | none => some stMalformed
  | some x => if b.ctxOfCmd c = some x then none else some stProtect

/-- The work of a CLOSE. -/
def closeWork (id : Nat) (c : Cmd) (b : Block) : Block :=
  match b.unitStatus c with
  | some st => b.endWith id c st (cdNum c.pb * 2 ^ 8)
  | none =>
    (if cdUnit c.pb = 0 then b.closeSession (cdNum c.pb) else b.closeRecords (cdNum c.pb)).endWith id c stDone
      (cdNum c.pb * 2 ^ 8)

/-- CODEC CLOSE (R282). -/
def execCodecClose (t : TStep) (s : State) : Host.Outcome State Fault Refusal :=
  s.upd (tensorRow specCodec (some 0) (codecRow 2 closeWork) t)

/-! The reference pool (R288). -/

/-- The place in a pool of the first entry that `p` accepts. -/
def poolFind (p : PoolEntry → Bool) (pool : List PoolEntry) : Option Nat := pool.findIdx? p

/-- The entry with the oldest decode order among those that `p` accepts. -/
def poolOldest (p : PoolEntry → Bool) (pool : List PoolEntry) : Option Nat :=
  match (pool.filter p).map (·.order) with
  | [] => none
  | o :: os => pool.findIdx? fun e => p e && e.order == os.foldl min o

/-- The entry of a new picture, with whether another was evicted for it (R288). (DEDUCED, log entry 48) -/
def curEntry (pool : List PoolEntry) : Option (Nat × Bool) :=
  match poolFind (fun e => e.mark == .free) pool with
  | some i => some (i, false)
  | none => (poolOldest (fun e => e.mark == .sref || e.mark == .lref) pool).map fun i => (i, true)

/-- The entry with the latest decode order among those that `p` accepts. -/
def poolNewest (p : PoolEntry → Bool) (pool : List PoolEntry) : Option Nat :=
  match (pool.filter p).map (·.order) with
  | [] => none
  | o :: os => pool.findIdx? fun e => p e && e.order == os.foldl max o

/-- An entry that a picture may be predicted from. -/
def PoolEntry.isRef (e : PoolEntry) : Bool := e.mark == .sref || e.mark == .lref

/-- Change the entry at a place of a pool. -/
def poolMod (pool : List PoolEntry) (i : Nat) (f : PoolEntry → PoolEntry) : List PoolEntry := pool.modify i f

/-! Pool buffers. The order of samples in a pool buffer is the block's own: rows of W8 samples, chroma as pairs, a sample
in the low bits of its bytes, little-endian. (DESIGN CHOICE, log entry 90) -/

def ssW8 (s : Session) : Nat := cdiv (ssW s) 8 * 8
def ssH8 (s : Session) : Nat := cdiv (ssH s) 8 * 8
/-- Bits of a sample. -/
def ssDepth (s : Session) : Nat := if ssDepth10 s then 10 else 8

/-- The place of a sample in its buffer, in samples. -/
def samplePlace (s : Session) (plane x y : Nat) : Nat :=
  if plane = 0 then y * ssW8 s + x else y * ssW8 s + 2 * x + (plane - 1)

/-- Write bytes at an offset of a boom buffer. -/
def Block.bufPut (b : Block) (key o : Nat) (xs : List Byte) : Block :=
  let x := b.boomBase (keyBoom key) + keyIndex key * boomSize (keyBoom key) + o
  if keyPlace key = landPlace then b.lwrite x xs else b.swrite (keyPlace key) x xs

/-- A sample of a pool entry. (DESIGN CHOICE, log entry 90) -/
def Block.poolSample (b : Block) (s : Session) (e : PoolEntry) (plane x y : Nat) : Nat :=
  leNat (readBytes (b.bufGet [if plane = 0 then e.y else e.c]) (samplePlace s plane x y * ssBytes s) (ssBytes s))

/-- The content of an entry's three buffers. -/
def Block.poolBytes (b : Block) (s : Session) (e : PoolEntry) : List Byte :=
  ([e.y, e.c, e.aux].zip (poolNeed s)).flatMap fun x => readBytes (b.bufGet [x.1]) 0 x.2

/-- The bytes of a picture's luma or chroma buffer. -/
def planeBytes (s : Session) (chroma : Bool) (f : Nat → Nat → Nat → Nat) : List Byte :=
  if chroma then (List.range (ssH8 s / 2)).flatMap fun y => (List.range (ssW8 s / 2)).flatMap fun x =>
    leBytes (ssBytes s) (f 1 x y) ++ leBytes (ssBytes s) (f 2 x y)
  else (List.range (ssH8 s)).flatMap fun y => (List.range (ssW8 s)).flatMap fun x => leBytes (ssBytes s) (f 0 x y)

/-- Store a picture, sample by sample (plane, column, row), and its AUX bytes in an entry's buffers.
(DESIGN CHOICE, log entry 90) -/
def Block.storePic (b : Block) (s : Session) (e : PoolEntry) (f : Nat → Nat → Nat → Nat) (aux : List Byte) : Block :=
  ((b.bufWrite [e.y] (planeBytes s false f)).bufWrite [e.c] (planeBytes s true f)).bufWrite [e.aux] aux

/-- TB or TA has a plane's type and extents. -/
def isPlane (d : Desc) (bytes k w h : Nat) : Bool :=
  dType d == planeType bytes && viewExt d 0 == k && viewExt d 1 == w && viewExt d 2 == h && viewExt d 3 == 1 &&
    viewExt d 4 == 1 && viewExt d 5 == 1

/-- The bytes of a byte string operand. -/
def Block.readString (b : Block) (c : Cmd) (d : Desc) : Option (List Byte) :=
  ((List.range (dSize d 0)).mapM fun i => (b.cmdLocal c (elemAddr d [i, 0, 0, 0, 0, 0]) 1).map fun l => b.locGet l 0)

end Sys2Proof.Machine
end

