-- ==== Sys2Proof/Machine/Pictures.lean ====
section
/-! DEFINITION. DECODE (10.2, 10.4, 10.6): what a string declares (Table 10.3), the reference process over the pool, damage and its concealment, and the output. The standards' own decoding is Config's; every rule of the spec is computed here. -/

namespace Sys2Proof.Machine

/-! Strings (Table 10.3). -/

/-- The "Refused" column of Table 10.3, and what a supported stream cannot be: another JPEG sampling, or another number
of bits to a sample. (DEDUCED, log entry 95) -/
def Tool.refused : Tool → Bool
  | .main | .main10 | .av1Main | .monochrome | .baseline | .extended => false
  | .rangeExtensions | .screenContent | .multilayer | .chroma422 | .chroma444 => true
  | .av1High | .av1Professional | .lengthDelimited | .largeScaleTile | .sizeChange | .superres => true
  | .progressive | .lossless | .hierarchical | .arithmetic | .fourComponents | .dnl => true
  | .otherSampling | .otherDepth => true

/-- A big-endian number of `n` bytes at an offset. -/
def beAt (xs : List Byte) (o : Nat) : Nat → Nat
  | 0 => 0
  | n + 1 => beAt xs o n * 256 + byteAt xs (o + n)

/-- The NAL units of an Annex B byte stream: what follows each start code 0x000001, up to the next. (PRESUMED, log
entry 91) (PRESUMED, log entry 91) -/
def nalUnits (xs : List Byte) : List (Nat × List Byte) :=
  let starts := (List.range xs.length).filter fun i =>
    byteAt xs i == 0 && byteAt xs (i + 1) == 0 && byteAt xs (i + 2) == 1 && i + 2 < xs.length
  (starts.zip (starts.drop 1 ++ [xs.length])).map fun p => (p.1 + 3, (xs.drop (p.1 + 3)).take (p.2 - p.1 - 3))

/-- nal_unit_type and nuh_layer_id of a NAL unit. (PRESUMED, log entry 91) -/
def nalType (u : List Byte) : Nat := byteAt u 0 / 2 % 64
def nalLayer (u : List Byte) : Nat := byteAt u 0 % 2 * 32 + byteAt u 1 / 8

/-- The NAL units that the decoder takes: of layer 0, SEI left out (Table 10.3). -/
def hevcUnits (xs : List Byte) : List (Nat × List Byte) :=
  (nalUnits xs).filter fun u => 2 ≤ u.2.length && nalLayer u.2 == 0 && nalType u.2 ≠ 39 && nalType u.2 ≠ 40

/-- The marker segments of a JPEG string up to its first scan: the marker, the offset of its parameters and their bytes.
(PRESUMED, log entry 91) -/
def jpegSegments (xs : List Byte) : Nat → Nat → List (Nat × Nat × Nat)
  | 0, _ => []
  | fuel + 1, p =>
    if byteAt xs p ≠ 0xFF then []
    else if byteAt xs (p + 1) = 0xFF then jpegSegments xs fuel (p + 1)
    else if byteAt xs (p + 1) = 0xD8 then jpegSegments xs fuel (p + 2)
    else
      let n := beAt xs (p + 2) 2
      let seg := (byteAt xs (p + 1), p + 4, n - 2)
      if byteAt xs (p + 1) = 0xDA ∨ n < 2 then [seg] else seg :: jpegSegments xs fuel (p + 2 + n)

/-- A start-of-frame marker. -/
def isSof (m : Nat) : Bool := 0xC0 ≤ m && m ≤ 0xCF && m ≠ 0xC4 && m ≠ 0xC8 && m ≠ 0xCC

/-- The process that a start-of-frame marker declares. (PRESUMED, log entry 91) -/
def sofTool (m : Nat) : Tool :=
  if m = 0xC0 then .baseline else if m = 0xC1 then .extended else if m = 0xC2 then .progressive
  else if m = 0xC3 then .lossless else if m = 0xC5 ∨ m = 0xC6 ∨ m = 0xC7 then .hierarchical else .arithmetic

/-- A JPEG image by its frame header. (PRESUMED, log entry 91) -/
def jpegUnit (xs : List Byte) : CodedUnit :=
  let segs := jpegSegments xs xs.length 0
  match segs.find? fun g => isSof g.1 with
  | none => { declares := [], pics := [], kept := 0 }
  | some (m, o, n) =>
    let nf := byteAt xs (o + 5)
    let h := byteAt xs (o + 7) / 16
    let v := byteAt xs (o + 7) % 16
    let one := nf == 1
    let depth := byteAt xs o
    let scan := ((segs.find? fun g => g.1 == 0xDA).map fun g => g.2.1).getD xs.length
    let lines := ((List.range xs.length).drop scan).any fun i => byteAt xs i == 0xFF && byteAt xs (i + 1) == 0xDC
    let sampled := one || ((h == 1 || h == 2) && (v == 1 || v == 2) && byteAt xs (o + 10) == 0x11 && byteAt xs (o + 13) == 0x11)
    { declares := sofTool m :: ((if 4 ≤ nf then [.fourComponents] else []) ++
        (if segs.any fun g => g.1 == 0xDE then [.hierarchical] else []) ++
        (if lines || beAt xs (o + 1) 2 == 0 then [.dnl] else []) ++ (if nf == 2 || !sampled then [.otherSampling] else []) ++
        (if depth == 8 || (depth == 12 && m ≠ 0xC0) then [] else [.otherDepth]))
      pics := [{ parameters := true, sets := [], head := o, headEnd := o + n, headOk := n == 6 + 3 * nf && 0 < nf,
                 width := beAt xs (o + 3) 2, height := beAt xs (o + 1) 2, depth := depth, mono := one,
                 blockW := if one then 8 else 8 * h, blockH := if one then 8 else 8 * v,
                 kind := .other, shown := true, order := 0, poc := 0, refs := .slots [] [], grain := false,
                 pieces := Config.jpegScan xs }]
      kept := 0 }

/-- What a string holds, by the session's standard. -/
def readUnit (s : Session) (xs : List Byte) : CodedUnit :=
  if ssCodec s = 0 then Config.hevc s.kept (hevcUnits xs)
  else if ssCodec s = 1 then Config.av1 s.kept xs
  else jpegUnit xs

/-! Refusal (R284, R285) and pictures that cannot be formed (R299). `bad` lists ranges of the string that are reported
as bad (R302). -/

/-- A range of the string meets a bad one. -/
def meetsBad (bad : List (Nat × Nat)) (o n : Nat) : Option Nat := (bad.find? fun r => overlaps r.1 r.2 o n).map (·.1)

/-- Where what a picture needs before its data is damaged or absent (R299); none where the picture can be formed. -/
def CodedPic.unformed (p : CodedPic) (fin : Nat) (bad : List (Nat × Nat)) : Option Nat :=
  match p.sets.findSome? fun r => meetsBad bad r.1 r.2 with
  | some x => some x
  | none =>
    if !p.parameters || !p.headOk then some p.head
    else if fin < p.headEnd then some fin
    else meetsBad bad p.head (p.headEnd - p.head)

/-- A picture of another size or sample depth than the session's; a JPEG image has any size up to it (R285). That
another depth ends like another size is not stated. (DEDUCED, log entry 95) -/
def wrongSize (s : Session) (p : CodedPic) : Bool :=
  if ssCodec s = 2 then !(1 ≤ p.width && p.width ≤ ssW s && 1 ≤ p.height && p.height ≤ ssH s)
  else p.width ≠ ssW s || p.height ≠ ssH s || p.depth ≠ ssDepth s

/-- The string is refused: nothing is written and the pool stays (R284, R285). -/
def CodedUnit.refused (u : CodedUnit) (s : Session) (fin : Nat) (bad : List (Nat × Nat)) : Bool :=
  u.declares.any Tool.refused || u.pics.any fun p => (p.unformed fin bad).isNone && wrongSize s p

/-! Damage (R297, R298). -/

/-- The first of two places of damage; none where there is none. -/
def firstDamage (a b : Option Nat) : Option Nat :=
  match a, b with
  | some x, some y => some (min x y)
  | some x, none => some x
  | none, y => y

/-- Coding blocks of a picture. -/
def CodedPic.across (p : CodedPic) : Nat := cdiv p.width p.blockW
def CodedPic.blocks (p : CodedPic) : Nat := p.across * cdiv p.height p.blockH

/-- Luma samples of the block at an address. -/
def CodedPic.area (p : CodedPic) (a : Nat) : Nat :=
  min p.blockW (p.width - a % p.across * p.blockW) * min p.blockH (p.height - a / p.across * p.blockH)

/-- The most bins, symbols or bits that a block may use (R297). -/
def CodedPic.budget (p : CodedPic) (codec a : Nat) : Nat :=
  if codec = 2 then 64 * (p.blockW * p.blockH + (if p.mono then 0 else 128)) else 8 * p.area a + 4096

/-- The first damage of a block: its place, and whether the block's budget ran out there. -/
def CodedPic.blockDamage (p : CodedPic) (codec fin : Nat) (bad : List (Nat × Nat)) (a : Nat) :
    Option CodedBlock → Option (Nat × Bool)
  | none => some (fin, false)
  | some k =>
    let at? := firstDamage (meetsBad bad k.first (k.fin - k.first))
      (firstDamage k.wrong (if fin < k.fin then some fin else none))
    if p.budget codec a < k.bins && (match at? with | some x => k.spent < x | none => true) then some (k.spent, true)
    else at?.map fun x => (x, false)

/-- The damage of a picture: the blocks concealed, each with entry 0 of its reference list 0, where the first damage is,
and the budgets that ran out. -/
structure Damage where
  places : List (Nat × Option Int)
  pos : Option Nat
  overruns : Nat
  deriving DecidableEq, Repr

/-- The blocks of a piece from the first damaged one on. -/
def CodedPic.fromDamaged (p : CodedPic) (codec fin : Nat) (bad : List (Nat × Nat)) (ref0 : Option Int) :
    List Nat → List CodedBlock → Damage
  | [], _ => { places := [], pos := none, overruns := 0 }
  | a :: as, ks =>
    match p.blockDamage codec fin bad a ks.head? with
    | some (x, spent) => { places := (a :: as).map fun i => (i, ref0), pos := some x, overruns := b2n spent }
    | none => p.fromDamaged codec fin bad ref0 as (ks.drop 1)

/-- The damage of one slice segment, tile or restart interval; one that depends on a damaged segment is concealed
whole. -/
def CodedPic.pieceDamage (p : CodedPic) (codec fin : Nat) (bad : List (Nat × Nat)) (hit : Bool) (q : CodedPiece) : Damage :=
  let whole := q.places.map fun i => (i, q.ref0)
  if q.dependent && hit then { places := whole, pos := none, overruns := 0 }
  else if !q.headOk || fin < q.headEnd then { places := whole, pos := some (min q.head fin), overruns := 0 }
  else match meetsBad bad q.head (q.headEnd - q.head) with
    | some x => { places := whole, pos := some x, overruns := 0 }
    | none => p.fromDamaged codec fin bad q.ref0 q.places q.blocks

/-- The damage of pieces in order; `hit` while a segment of the slice is damaged. -/
def CodedPic.piecesDamage (p : CodedPic) (codec fin : Nat) (bad : List (Nat × Nat)) : Bool → List CodedPiece → Damage
  | _, [] => { places := [], pos := none, overruns := 0 }
  | hit, q :: qs =>
    let d := p.pieceDamage codec fin bad hit q
    let e := p.piecesDamage codec fin bad (!d.places.isEmpty) qs
    { places := d.places ++ e.places, pos := firstDamage d.pos e.pos, overruns := d.overruns + e.overruns }

/-- The damage of a picture (R298); a block that no piece holds is one whose data ended before it. (DEDUCED, log
entry 95) (DEDUCED, log entry 95) -/
def CodedPic.damage (p : CodedPic) (codec fin : Nat) (bad : List (Nat × Nat)) : Damage :=
  let d := p.piecesDamage codec fin bad false p.pieces
  let lost := (List.range p.blocks).filter fun a => !p.pieces.any fun q => q.places.contains a
  { d with
    places := d.places ++ lost.map fun a => (a, (p.pieces.head?.map (·.ref0)).getD none)
    pos := firstDamage d.pos (if lost = [] then none else some fin) }

/-! The reference process (R287, R288). -/

/-- The pool entry that holds a reference: by its order count, or by its slot. -/
def Session.refEntry (s : Session) (r : Int) : Option Nat :=
  if ssCodec s = 0 then s.pool.findIdx? fun e => e.isRef && e.poc == r
  else match s.slots.getD r.toNat none with
    | some i => if (s.pool[i]?.map PoolEntry.isRef).getD false then some i else none
    | none => none

/-- The references that a picture uses. -/
def CodedPic.uses (p : CodedPic) : List Int :=
  match p.refs with
  | .rps _ _ us => us
  | .slots _ us => us.map Int.ofNat

/-- The entry that serves a reference: its own, or the substitute, the reference with the latest decode order (R298). -/
def Session.serving (s : Session) (r : Int) : Option Nat :=
  match s.refEntry r with
  | some i => some i
  | none => poolNewest PoolEntry.isRef s.pool

/-- The marks that a reference picture set leaves (R287). -/
def rpsMark (p : CodedPic) (e : PoolEntry) : PoolEntry :=
  match p.refs with
  | .rps short long _ =>
    { e with mark := if !e.isRef then e.mark else if short.contains e.poc then .sref else if long.contains e.poc then .lref else .free }
  | .slots _ _ => e

/-- The session while a picture is decoded: its marks, its entry as CUR, and whether another was evicted for it (R288). -/
def Session.beginPic (s : Session) (p : CodedPic) : Session × Option (Nat × Bool) :=
  let pool := s.pool.map (rpsMark p)
  match curEntry pool with
  | none => ({ s with pool := pool }, none)
  | some (i, evicted) =>
    ({ s with
       pool := poolMod pool i fun e => { e with mark := .cur, order := s.decoded, poc := p.poc }
       slots := s.slots.map fun x => if x = some i then none else x }, some (i, evicted))

/-- An AV1 entry is referenced while a slot names it. -/
def slotMarks (slots : List (Option Nat)) (pool : List PoolEntry) : List PoolEntry :=
  pool.zipIdx.map fun e => { e.1 with mark := if slots.contains (some e.2) then .sref else .free }

/-- The slots after a refresh by an entry. -/
def Session.refresh (s : Session) (p : CodedPic) (i : Nat) : Session :=
  match p.refs with
  | .rps _ _ _ => { s with pool := poolMod s.pool i fun e => { e with mark := .sref } }
  | .slots which _ =>
    let slots := s.slots.zipIdx.map fun x => if which.contains x.2 then some i else x.1
    { s with slots := slots, pool := slotMarks slots s.pool }

/-! One picture. -/

/-- Mid-grey (R298). -/
def midGrey (depth : Nat) : Nat := 2 ^ (depth - 1)

/-- The stored form of a sample (R289): v, v << 6 at 10 bits, v << 4 at 12 bits. -/
def storedForm (depth v : Nat) : Nat := if depth = 8 then v else v * 2 ^ (16 - depth)

/-- A picture's sample: concealed (R298), grey for the chroma of a monochrome one, or what the standard makes of it.
`sub` gives the luma place of a chroma sample's column and row. -/
def CodedPic.pixel (p : CodedPic) (d : Damage) (sub : Nat × Nat) (copy : Int → Nat → Nat → Nat → Option Nat)
    (decoded : Nat → Nat → Nat → Nat) (plane x y : Nat) : Nat :=
  let lx := if plane = 0 then x else x * sub.1
  let ly := if plane = 0 then y else y * sub.2
  if p.mono && plane ≠ 0 then midGrey p.depth
  else match d.places.find? fun e => e.1 == ly / p.blockH * p.across + lx / p.blockW with
    | some (_, some r) => (copy r plane x y).getD (midGrey p.depth)
    | some (_, none) => midGrey p.depth
    | none => decoded plane x y % 2 ^ p.depth

/-- What decoding a string has done: the entry of the last picture, that picture and its place in the string, the last
one that is shown, the pictures decoded, the missing references, whether an entry was evicted, the budgets that ran out,
the first damage, and whether a picture could not be formed. -/
structure DecodeOut where
  shown : Option (Option Nat × Nat × CodedPic)
  key : Bool
  made : Nat
  missing : Nat
  evicted : Bool
  overruns : Nat
  pos : Option Nat
  failed : Bool
  deriving DecidableEq, Repr

/-- A picture that is an IDR, a CRA or a key frame (Table 10.10). -/
def PicKind.isKey : PicKind → Bool
  | .idr | .cra | .key => true
  | .rasl | .other | .existing _ => false

/-- Missing references of a picture (R298). -/
def Session.missing (s : Session) (us : List Int) : Nat := (us.filter fun r => (s.refEntry r).isNone).length

/-- A missing reference is damage at the header that names it. -/
def refDamage (missing head : Nat) : Option Nat := if missing = 0 then none else some head

/-- One picture of an HEVC or AV1 string is decoded into its entry (R287, R288, R298). -/
def Block.decodePic (b : Block) (n : Nat) (s : Session) (xs : List Byte) (bad : List (Nat × Nat)) (k : Nat) (p : CodedPic)
    (o : DecodeOut) : Block × DecodeOut :=
  match s.beginPic p with
  | (_, none) => (b, { o with failed := true, pos := firstDamage o.pos (some p.head) })
  | (s1, some (i, evicted)) =>
    let missing := s1.missing p.uses
    let d := p.damage (ssCodec s) xs.length bad
    let entry := fun (r : Int) => (s1.serving r).bind fun j => s1.pool[j]?
    let refs := p.uses.map fun r => ((entry r).map (b.poolBytes s)).getD []
    let at' := d.places.map (·.1)
    let f := p.pixel d (2, 2) (fun r pl x y => (entry r).map fun e => b.poolSample s e pl x y) (Config.sample s.kept xs k refs at')
    let aux := (List.range ((poolNeed s).getD 2 0)).map (Config.motion s.kept xs k refs)
    let b := match s1.pool[i]? with
      | some e => b.storePic s e f aux
      | none => b
    let s2 := { s1.refresh p i with decoded := s.decoded + 1, begun := true
                                    skipRasl := if p.kind = .cra then !s.begun else if p.kind.isKey then false else s.skipRasl }
    (b.setSess n s2,
      { shown := if p.shown then some (some i, k, p) else o.shown, key := p.kind.isKey, made := o.made + 1,
        missing := o.missing + missing, evicted := o.evicted || evicted, overruns := o.overruns + d.overruns,
        pos := firstDamage o.pos (firstDamage d.pos (refDamage missing p.head)), failed := false })

/-- A show_existing_frame: its slot's picture is shown; one that shows a key frame refreshes slots. -/
def Block.showExisting (b : Block) (n : Nat) (s : Session) (k slot : Nat) (p : CodedPic) (o : DecodeOut) : Block × DecodeOut :=
  let missing := s.missing [Int.ofNat slot]
  let served := s.serving (Int.ofNat slot)
  let b := match served with
    | some i => b.setSess n (s.refresh p i)
    | none => b
  (b, { o with shown := some (served, k, p), key := false, missing := o.missing + missing,
               pos := firstDamage o.pos (refDamage missing p.head) })

/-- The pictures of a string, in decode order, up to one that cannot be formed. RASL pictures that follow the CRA that
decoding began at are left out (R289). -/
def Block.decodePics (b : Block) (n : Nat) (xs : List Byte) (bad : List (Nat × Nat)) : Nat → List CodedPic → DecodeOut →
    Block × DecodeOut
  | _, [], o => (b, o)
  | k, p :: ps, o =>
    match b.sess n with
    | none => (b, o)
    | some s =>
      if p.kind = .rasl ∧ s.skipRasl then b.decodePics n xs bad (k + 1) ps o
      else match p.unformed xs.length bad with
        | some x => (b, { o with failed := true, shown := none, pos := firstDamage o.pos (some x) })
        | none =>
          let r := match p.kind with
            | .existing slot => b.showExisting n s k slot p o
            | _ => b.decodePic n s xs bad k p o
          if r.2.failed then r else r.1.decodePics n xs bad (k + 1) ps r.2

/-- Nothing decoded yet. -/
def DecodeOut.empty : DecodeOut :=
  { shown := none, key := false, made := 0, missing := 0, evicted := false, overruns := 0, pos := none, failed := false }

/-- A string is decoded on session `n`: the pool and the session's syntax state (R287 to R289, R298, R299). A string
without a picture forms none. A JPEG image has no pool. -/
def Block.decodeString (b : Block) (n : Nat) (s : Session) (u : CodedUnit) (xs : List Byte) (bad : List (Nat × Nat)) :
    Block × DecodeOut :=
  match u.pics with
  | [] => (b.setSess n { s with kept := u.kept }, { DecodeOut.empty with failed := true, pos := some 0 })
  | p :: _ =>
    if ssCodec s = 2 then
      match p.unformed xs.length bad with
      | some x => (b, { DecodeOut.empty with failed := true, pos := some x })
      | none =>
        let d := p.damage 2 xs.length bad
        (b, { DecodeOut.empty with shown := some (none, 0, p), made := 1, overruns := 0, pos := d.pos })
    else
      let r := b.decodePics n xs bad 0 u.pics DecodeOut.empty
      (match r.1.sess n with
        | some s => r.1.setSess n { s with kept := u.kept }
        | none => r.1, r.2)

/-! The output (R289). -/

/-- The samples that a decode writes out (`kept` is what the session kept before it): of the pool entry, with film grain where it applies, of grey where no entry
serves, or of the JPEG image, its chroma replicated. -/
def Block.outSample (b : Block) (s : Session) (kept : Nat) (xs : List Byte) (bad : List (Nat × Nat)) (grain : Bool)
    (x : Option Nat × Nat × CodedPic) (plane px py : Nat) : Nat :=
  let p := x.2.2
  if ssCodec s = 2 then
    let h := p.blockW / 8
    let v := p.blockH / 8
    let d := p.damage 2 xs.length bad
    let f := p.pixel d (h, v) (fun _ _ _ _ => none) (Config.sample kept xs 0 [] (d.places.map (·.1)))
    if plane = 0 then f 0 px py else f plane (px / h) (py / v)
  else
    let v := match x.1.bind fun i => s.pool[i]? with
      | some e => b.poolSample s e plane px py
      | none => midGrey p.depth
    if p.mono && plane ≠ 0 then midGrey p.depth
    else if grain && p.grain then Config.grain kept xs x.2.1 plane px py v % 2 ^ p.depth
    else v

/-- Write the chroma pairs of a picture. -/
def Block.writeChroma (b : Block) (c : Cmd) (a stride : Nat) (s : Session) (f : Nat → Nat → Nat → Nat) : Block :=
  let w := cdiv (ssW s) 2
  let e := ssBytes s
  b.each (List.range (cdiv (ssH s) 2)) fun b y =>
    match b.cmdLocal c (a + y * stride) (2 * w * e) with
    | none => b
    | some l => b.locWrite l 0 ((List.range w).flatMap fun x =>
        leBytes e (storedForm (ssDepth s) (f 1 x y)) ++ leBytes e (storedForm (ssDepth s) (f 2 x y)))

/-- TB and the OUT_C region fit what a decode on the session writes; else the status (R289, R297). -/
def Block.decodeUnfit (b : Block) (c : Cmd) (n outC stride : Nat) (s : Session) (u : CodedUnit) : Option Nat :=
  if ssCodec s = 2 then
    match u.pics.head? with
    | some p => if p.headOk && !isPlane c.tb (if p.depth = 8 then 1 else 2) (if p.mono then 1 else 3) p.width p.height
        then some stMalformed else none
    | none => none
  else if !isPlane c.tb (ssBytes s) 1 (ssW s) (ssH s) then some stMalformed
  else if !b.outOk c n outC stride then some stProtect
  else none

/-- The counters of a decode (Table 10.14). -/
def Block.decodeCount (b : Block) (n : Nat) (o : DecodeOut) (st : Nat) : Block :=
  let b := (b.satAdd (CDC_SESS n 0xC) 0 16 o.overruns).satAdd (CDC_SESS n 0x8) 0 16 o.missing
  let b := if o.evicted then b.satAdd (CDC_SESS n 0xC) 16 16 1 else b
  let b := b.satAdd (CDC_SESS n 0x4) 0 32 o.made
  if st = stConcealed then b.satAdd (CDC_SESS n 0x8) 16 16 1 else b

/-- The status of a decode. -/
def DecodeOut.status (o : DecodeOut) : Nat := if o.failed then stCorrupt else if o.pos.isSome then stConcealed else stDone

/-- The DECODE result above its status (Table 10.10); `base` is the string's place in TA. -/
def DecodeOut.word (o : DecodeOut) (s : Session) (base : Nat) : Nat :=
  let order := match o.shown with
    | some (_, _, p) => if ssCodec s = 2 then 0 else p.order % 2 ^ 16
    | none => 0
  ((o.pos.map (base + ·)).getD 0xFFFFFFFF) * 2 ^ 24 + order * 2 ^ 8 + b2n o.shown.isSome * 2 ^ 7 +
    b2n (o.missing ≠ 0) * 2 ^ 6 + b2n o.evicted * 2 ^ 5 + b2n o.key * 2 ^ 4

/-- The decode ends: its counters, the picture that it shows, its result. -/
def Block.decodeEnd (b : Block) (id : Nat) (c : Cmd) (n outC stride kept : Nat) (xs : List Byte)
    (bad : List (Nat × Nat)) (grain : Bool) (o : DecodeOut) (result : Nat) : Block :=
  let st := o.status
  let b := b.decodeCount n o st
  let c := { c with result := BitVec.ofNat 56 result }
  match b.sess n, o.shown with
  | some s, some x =>
    let f := b.outSample s kept xs bad grain x
    let b := if ssCodec s = 2 then b else b.writeChroma c outC stride s f
    b.deliverAll id c (fun t =>
      let v := viewIx c.tb t.s
      some (if inStore c.tb t.s then
          (if ix v 0 < viewExt c.tb 0 ∧ ix v 1 < viewExt c.tb 1 ∧ ix v 2 < viewExt c.tb 2 then
            storedForm x.2.2.depth (f (ix v 0) (ix v 1) (ix v 2)) / 256 ^ t.part % 256
          else fillByte c.tb t)
        else fillByte c.tb t)) st
  | _, _ => (b.setCmd id c).finish id st

/-- A DECODE that does no work reports no damage (Table 10.10). -/
def decodeNone : Nat := 0xFFFFFFFF000000

/-- DECODE (R284, R285, R289, R297 to R299). -/
def decodeWork (id : Nat) (c : Cmd) (b : Block) : Block :=
  let n := cdNum c.pb
  match b.unitStatus c, b.sess n, b.readString c c.ta with
  | some st, _, _ => b.endWith id c st decodeNone
  | none, none, _ => b.endWith id c stMalformed decodeNone
  | none, some s, xs =>
    if ssEnc s then b.endWith id c stMalformed decodeNone
    else match xs with
      | none => b.endWith id c stProtect decodeNone
      | some xs =>
        let u := readUnit s xs
        if u.refused s xs.length [] then b.endWith id c stMalformed decodeNone
        else match b.decodeUnfit c n (pbW c.pb 1) (pbW c.pb 2) s u with
          | some st => b.endWith id c st decodeNone
          | none =>
            let r := b.decodeString n s u xs []
            r.1.decodeEnd id c n (pbW c.pb 1) (pbW c.pb 2) s.kept xs [] (!bit c.pb 0) r.2 (r.2.word s 0)

/-- CODEC DECODE (R284 to R299). -/
def execDecode (t : TStep) (s : State) : Host.Outcome State Fault Refusal :=
  s.upd (tensorRow specCodec (some 0) (codecRow 3 decodeWork) t)

end Sys2Proof.Machine
end

