-- ==== Sys2Proof/Machine/Encoder.lean ====
section
/-! DEFINITION. ENCODE (10.5): its checks, rate control, the motion search, the coding of rows under the cap, the slices, and what a reset leaves. The bits of a standard's syntax are Config's. -/

namespace Sys2Proof.Machine

/-! ENCODE (R290 to R296). -/

def enTarget (c : Cmd) : Nat := pbW c.pb 5
def enCap (c : Cmd) : Nat := pbW c.pb 6
def enQpMax (c : Cmd) : Nat := bits c.pb 0xF8 8
def enQpMin (c : Cmd) : Nat := bits c.pb 0xF0 8
def enQpInit (c : Cmd) : Nat := bits c.pb 0xE8 8
def enMode (c : Cmd) : Bool := bit c.pb 0xE0

/-- CTU or superblock rows. -/
def enRows (s : Session) : Nat := cdiv (ssH s) 64
def enCtus (s : Session) : Nat := cdiv (ssW s) 64 * enRows s
def enSlices (s : Session) : Nat := if ssSliceRows s = 0 then 1 else cdiv (enRows s) (ssSliceRows s)
/-- Rows that slices 0 to `i` hold. -/
def enSliceEnd (s : Session) (i : Nat) : Nat :=
  if ssSliceRows s = 0 then enRows s else min (enRows s) ((i + 1) * ssSliceRows s)

/-- The slice counter, where SLICE_EN asks for one. -/
def Block.sliceCtr (b : Block) (c : Cmd) : Option (Option Nat) :=
  if bit c.pb 0x9F then
    match b.findJob c.job with
    | some j => (b.resolveCtr j (BitVec.ofNat 1 (bits c.pb 0x8C 1)) (bits c.pb 0x80 12)).map some
    | none => none
  else some none

/-! The input (R290). -/

/-- A sample of the input as the encoder takes it: 10-bit input as (v + 32) >> 6, saturated to 1,023. -/
def inputSample (s : Session) (v : Nat) : Nat := if ssDepth10 s then min 1023 ((v + 32) / 64) else v

/-- The luma plane that TA holds, row by row; none where it may not be read. -/
def Block.readLuma (b : Block) (c : Cmd) (s : Session) : Option (List Nat) :=
  ((List.range (ssH s)).flatMap fun y => (List.range (ssW s)).map fun x => (x, y)).mapM fun p =>
    (b.loadView c c.ta [0, p.1, p.2, 0, 0, 0]).map (inputSample s)

/-- The chroma pairs at IN_C, row by row. -/
def Block.readChroma (b : Block) (c : Cmd) (s : Session) : Option (List Nat) :=
  let e := ssBytes s
  ((List.range (ssH s / 2)).flatMap fun y => (List.range (ssW s)).map fun i => (i, y)).mapM fun p =>
    (b.localNat c (pbW c.pb 1 + p.2 * pbW c.pb 2 + p.1 * e) e).map (inputSample s)

/-- R290. -/
def Block.encodeStop (b : Block) (c : Cmd) (s : Session) : Option Nat :=
  let top := if ssCodec s = 1 then 255 else 51
  if !ssEnc s || !isPlane c.ta (ssBytes s) 1 (ssW s) (ssH s) || dSize c.tb 0 < enCap c ||
      !(enQpMin c ≤ enQpInit c && enQpInit c ≤ enQpMax c && enQpMax c ≤ top) ||
      enCap c < 512 + 2 * enCtus s + 64 * enSlices s || (b.sliceCtr c).isNone then some stMalformed
  else if !b.chromaOk c (pbW c.pb 1) (pbW c.pb 2) (cdiv (ssH s) 2) (2 * cdiv (ssW s) 2 * ssBytes s) ||
      (pbW c.pb 3 ≠ 0 && (b.cmdLocal c (pbW c.pb 3) (4 * enSlices s)).isNone) || (b.readLuma c s).isNone then some stProtect
  else none

/-- An encode in progress: rows coded, their QP, the sum of the QPs of the coded rows, EXH_ROW, CAP_CTU, slices
complete, the bytes of the complete slices, the entry of the picture, and what the coder has made so far (R292). -/
structure EncRun where
  row : Nat
  qp : Nat
  sum : Nat
  exh : Nat
  cap : Nat
  slices : Nat
  sliceBytes : Nat
  entry : Nat
  idr : Bool
  coder : Nat
  deriving DecidableEq, Repr

/-- An ENCODE in progress as its scratch, and back. -/
def EncRun.pack (r : EncRun) : List Nat :=
  [r.row, r.qp, r.sum, r.exh, r.cap, r.slices, r.sliceBytes, r.entry, b2n r.idr, r.coder]

def encRun (c : Cmd) : Option EncRun :=
  match c.scratch with
  | [row, qp, sum, exh, cap, slices, sliceBytes, entry, idr, coder] =>
    some { row := row, qp := qp, sum := sum, exh := exh, cap := cap, slices := slices, sliceBytes := sliceBytes,
           entry := entry, idr := idr == 1, coder := coder }
  | _ => none

/-- The picture is an IDR or a key frame (R291). -/
def encodeIdr (s : Session) (c : Cmd) : Bool := s.needIdr || bit c.pb 0 || (ssGop s ≠ 0 && ssGop s ≤ s.sinceIdr)

/-- A QP moved by `a` and clamped to [QP_MIN, QP_MAX]. -/
def qpClamp (c : Cmd) (qp : Nat) (a : Int) : Nat := (clampInt (enQpMin c) (enQpMax c) ((qp : Int) + a)).toNat

/-- The history of an earlier picture of the kind, forgotten where QP_INIT has changed (R294). -/
def encodeLast (s : Session) (c : Cmd) (idr : Bool) : Option (Nat × Nat) :=
  if s.lastQpInit ≠ some (enQpInit c) then none else if idr then s.lastIdr else s.lastP

/-- qp_f (R294). -/
def frameQp (s : Session) (c : Cmd) (idr : Bool) : Nat :=
  match encodeLast s c idr with
  | none => enQpInit c
  | some (qpavg, bytes) =>
    qpClamp c qpavg (if enTarget c * 9 < bytes * 8 then 1 else if bytes * 8 < enTarget c * 7 then -1 else 0)

/-- The QP of the next row after row `r` of `rows` with `spent` bytes written (R294), and EXH_ROW. -/
def rowQp (c : Cmd) (rows r spent qp exh : Nat) : Nat × Nat :=
  let exh := if exh = 0xFF ∧ enTarget c ≤ spent ∧ r + 1 < rows then r else exh
  if exh ≠ 0xFF then (enQpMax c, exh)
  else
    let p := enTarget c * (r + 1)
    let s := spent * rows
    let a : Int := if 5 * p < 4 * s then 2 else if 17 * p < 16 * s then 1 else if 16 * s < 13 * p then -1 else 0
    (qpClamp c qp a, exh)

/-- A picture begins: its entry, its marks and its QP. (DEDUCED, log entry 48) -/
def Block.encodeBegin (b : Block) (n : Nat) (s : Session) (c : Cmd) : Block × EncRun :=
  let idr := encodeIdr s c
  let pool := if idr then s.pool.map fun e => { e with mark := .free } else s.pool
  let cur := (curEntry pool).getD (0, false)
  let pool := pool.zipIdx.map fun e => if e.2 = cur.1 then { e.1 with mark := .cur, order := s.decoded } else e.1
  let keep := s.lastQpInit = some (enQpInit c)
  let qp := if enMode c then frameQp s c idr else enQpInit c
  let b := b.setSess n { s with pool := pool, lastQpInit := some (enQpInit c),
                                lastIdr := if keep then s.lastIdr else none, lastP := if keep then s.lastP else none }
  let b := if cur.2 then b.satAdd (CDC_SESS n 0xC) 16 16 1 else b
  (b, { row := 0, qp := qp, sum := 0, exh := 0xFF, cap := 0xFFF, slices := 0, sliceBytes := 0,
        entry := cur.1, idr := idr, coder := 0 })

/-- The ENCODE result word above its status (Table 10.9). -/
def encodeResult (bytes exh cap : Nat) (idr first trunc : Bool) (qpavg : Nat) : Nat :=
  bytes % 2 ^ 24 * 2 ^ 32 + exh % 256 * 2 ^ 24 + cap % 4096 * 2 ^ 12 + b2n idr * 2 ^ 11 + b2n first * 2 ^ 10 +
    b2n trunc * 2 ^ 9 + qpavg % 256

/-- FIRST_GOP of a picture (R291): up to the second IDR. -/
def firstGopOf (s : Session) (idr : Bool) : Bool := s.firstGop && (!idr || s.decoded == 0)

/-- The result of an ENCODE that codes nothing. -/
def encodeNone : Nat := encodeResult 0 0xFF 0xFFF false false false 0

/-- The mean QP of the coded rows. -/
def EncRun.qpavg (r : EncRun) : Nat := if r.row = 0 then 0 else r.sum / r.row

/-- The reference marks after an encoded picture: its last REFS pictures are SREF (R287). -/
def encodeMarks (s : Session) (entry : Nat) : List PoolEntry :=
  s.pool.zipIdx.map fun e =>
    if e.2 = entry then { e.1 with mark := .sref }
    else if e.1.mark = .sref ∧ e.1.order + ssRefs s ≤ s.decoded then { e.1 with mark := .free } else e.1

/-! The motion search (R292). Vectors are held in quarter samples. What R292 leaves to the encoder (SATD, λ, the bits of a
vector, the interpolation) is Config's. (DESIGN CHOICE, log entry 89) -/

/-- A plane held row by row, its edge samples repeated outside it. -/
def planeAt (xs : List Nat) (w h : Nat) (x y : Int) : Nat :=
  xs.getD ((clampInt 0 ((h : Int) - 1) y).toNat * w + (clampInt 0 ((w : Int) - 1) x).toNat) 0

/-- The plane of half the size: (a + b + c + d + 2) >> 2. -/
def halved (xs : List Nat) (w h : Nat) : List Nat :=
  let at' := fun (x y : Nat) => planeAt xs w h x y
  (List.range (h / 2)).flatMap fun y => (List.range (w / 2)).map fun x =>
    (at' (2 * x) (2 * y) + at' (2 * x + 1) (2 * y) + at' (2 * x) (2 * y + 1) + at' (2 * x + 1) (2 * y + 1) + 2) / 4

/-- The upper 8 bits of samples. -/
def upper8 (s : Session) (xs : List Nat) : List Nat := xs.map fun v => v / 2 ^ (ssDepth s - 8)

/-- A luma picture with its half and quarter planes. -/
structure Pyramid where
  w : Nat
  h : Nat
  full : List Nat
  half : List Nat
  quarter : List Nat
  deriving DecidableEq, Repr

/-- The pyramid of the input. -/
def pyramid (s : Session) (luma : List Nat) : Pyramid :=
  let half := halved (upper8 s luma) (ssW s) (ssH s)
  { w := ssW s, h := ssH s, full := luma, half := half, quarter := halved half (ssW s / 2) (ssH s / 2) }

/-- Blocks of 16 × 16 across. -/
def blocksAcross (s : Session) : Nat := cdiv (ssW s) 16

/-- Bytes of AUX before its planes. -/
def vectorBytes (s : Session) : Nat := 16 * blocksAcross s * cdiv (ssH s) 16

/-- The pyramid of a reference: its luma and the planes that its AUX holds. -/
def Block.refPyramid (b : Block) (s : Session) (e : PoolEntry) : Pyramid :=
  let w := ssW s
  let h := ssH s
  let aux := (readBytes (b.bufGet [e.aux]) (vectorBytes s) (w / 2 * (h / 2) + w / 4 * (h / 4))).map (·.toNat)
  { w := w, h := h,
    full := (List.range h).flatMap fun y => (List.range w).map fun x => b.poolSample s e 0 x y
    half := aux.take (w / 2 * (h / 2)), quarter := aux.drop (w / 2 * (h / 2)) }

/-- The vector of a 16 × 16 block for reference `r`, as an entry's AUX holds it. (DESIGN CHOICE, log entry 89) -/
def Block.auxVector (b : Block) (s : Session) (e : PoolEntry) (bx by' r : Nat) : Int × Int :=
  let o := 16 * (by' * blocksAcross s + bx) + 4 * r
  let v := fun (k : Nat) => sext 16 (leNat (readBytes (b.bufGet [e.aux]) (o + 2 * k) 2))
  (v 0, v 1)

/-- The sum of absolute differences of n × n blocks. -/
def sad (cur ref : Int → Int → Nat) (n : Nat) (x y : Int) (v : Int × Int) : Nat :=
  ((List.range n).flatMap fun (j : Nat) => (List.range n).map fun (i : Nat) =>
    ((cur (x + i) (y + j) : Int) - ref (x + i + v.1) (y + j + v.2)).natAbs).sum

/-- The first of the vectors with the lowest cost. (DESIGN CHOICE, log entry 89) -/
def lowest (cost : Int × Int → Nat) : List (Int × Int) → Option (Int × Int)
  | [] => none
  | v :: vs => match lowest cost vs with
    | some w => if cost w < cost v then some w else some v
    | none => some v

/-- The vectors around one, in raster order, in steps of `k` up to `nx` and `ny` of them each way. -/
def ring (v : Int × Int) (nx ny k : Nat) : List (Int × Int) :=
  (List.range (2 * ny + 1)).flatMap fun (j : Nat) => (List.range (2 * nx + 1)).map fun (i : Nat) =>
    (v.1 + k * ((i : Int) - nx), v.2 + k * ((j : Int) - ny))

/-- SEARCH_X and SEARCH_Y. -/
def ssSearchX (s : Session) : Nat := bits s.cfg 64 16
def ssSearchY (s : Session) : Nat := bits s.cfg 80 16

/-- The vectors that stay in the search range, at `k` units to a sample. -/
def inSearch (s : Session) (k : Nat) (v : Int × Int) : Bool :=
  v.1.natAbs ≤ k * ssSearchX s && v.2.natAbs ≤ k * ssSearchY s

/-- Step 1 of R292: the two lowest on the quarter planes. -/
def searchQuarter (s : Session) (cur ref : Pyramid) (bx by' : Nat) (candidates : List (Int × Int)) : List (Int × Int) :=
  let plane := fun (p : Pyramid) => planeAt p.quarter (p.w / 4) (p.h / 4)
  let fits := fun (v : Int × Int) => v.1.natAbs ≤ ssSearchX s / 4 && v.2.natAbs ≤ ssSearchY s / 4
  let all := ((ring (0, 0) (ssSearchX s / 4) (ssSearchY s / 4) 1) ++
    candidates.flatMap fun v => ring (v.1 / 16, v.2 / 16) 2 2 1).filter fits
  let cost := sad (plane cur) (plane ref) 4 (4 * bx) (4 * by')
  match lowest cost all with
  | none => []
  | some v => v :: (lowest cost (all.filter (· ≠ v))).toList

/-- Step 2: each kept vector doubled and refined on the half planes, one kept. -/
def searchHalf (s : Session) (cur ref : Pyramid) (bx by' : Nat) (kept : List (Int × Int)) : Int × Int :=
  let plane := fun (p : Pyramid) => planeAt p.half (p.w / 2) (p.h / 2)
  let fits := fun (v : Int × Int) => v.1.natAbs ≤ ssSearchX s / 2 && v.2.natAbs ≤ ssSearchY s / 2
  (lowest (sad (plane cur) (plane ref) 8 (8 * bx) (8 * by'))
    ((kept.flatMap fun v => ring (2 * v.1, 2 * v.2) 2 2 1).filter fits)).getD (0, 0)

/-- A plane at a place in quarter samples. -/
def quarterSample (codec : Nat) (plane : Int → Int → Nat) (x y : Int) : Nat :=
  if x % 4 = 0 ∧ y % 4 = 0 then plane (x / 4) (y / 4) else Config.interpolate codec plane x y

/-- SATD + λ × bits of a vector at full resolution. -/
def vectorCost (s : Session) (qp : Nat) (cur ref : Pyramid) (bx by' : Nat) (v : Int × Int) : Nat :=
  let here := planeAt cur.full cur.w cur.h
  let there := quarterSample (ssCodec s) (planeAt ref.full ref.w ref.h)
  let diffs := (List.range 16).flatMap fun (j : Nat) => (List.range 16).map fun (i : Nat) =>
    let x : Int := 16 * bx + i
    let y : Int := 16 * by' + j
    (here x y : Int) - there (4 * x + v.1) (4 * y + v.2)
  Config.satd (ssCodec s) diffs + Config.lambda (ssCodec s) qp * Config.vectorBits (ssCodec s) v

/-- Step 3: the vector doubled and refined by full, half and quarter samples. -/
def searchFull (s : Session) (qp : Nat) (cur ref : Pyramid) (bx by' : Nat) (v : Int × Int) : Int × Int :=
  let refine := fun (v : Int × Int) (n k : Nat) =>
    (lowest (vectorCost s qp cur ref bx by') ((ring v n n k).filter (inSearch s 4))).getD v
  refine (refine (refine (8 * v.1, 8 * v.2) 2 4) 1 2) 1 1

/-- The vector of a 16 × 16 block in a reference. -/
def searchBlock (s : Session) (qp : Nat) (cur ref : Pyramid) (bx by' : Nat) (candidates : List (Int × Int)) : Int × Int :=
  searchFull s qp cur ref bx by' (searchHalf s cur ref bx by' (searchQuarter s cur ref bx by' candidates))

/-- The references of a picture: the latest REFS pictures, latest first; none of an IDR. (DEDUCED, log entry 96) -/
def encodeRefs (s : Session) (idr : Bool) : List PoolEntry :=
  if idr then []
  else
    let rs := s.pool.filter PoolEntry.isRef
    ((List.range (s.decoded + 1)).reverse.filterMap fun o => rs.find? fun e => e.order == o).take (ssRefs s)

/-- Store the vectors of a block in the picture's AUX, one of each reference. -/
def Block.putVectors (b : Block) (s : Session) (e : PoolEntry) (bx by' : Nat) (vs : List (Int × Int)) : Block :=
  let code := fun (v : Int) => leBytes 2 (v % 65536).toNat
  b.bufPut e.aux (16 * (by' * blocksAcross s + bx))
    ((vs.flatMap fun v => code v.1 ++ code v.2) ++ List.replicate (16 - 4 * vs.length) 0)

/-- The vectors of a block: in each reference, from its candidates left, above, above right and co-located.
(DESIGN CHOICE, log entry 89) -/
def Block.searchVectors (b : Block) (s : Session) (qp : Nat) (cur : Pyramid) (e : PoolEntry) (refs : List PoolEntry)
    (bx by' : Nat) : List (Int × Int) :=
  refs.zipIdx.map fun r =>
    let near := ((if 0 < bx then [b.auxVector s e (bx - 1) by' r.2] else []) ++
      (if 0 < by' then [b.auxVector s e bx (by' - 1) r.2] else []) ++
      (if 0 < by' ∧ bx + 1 < blocksAcross s then [b.auxVector s e (bx + 1) (by' - 1) r.2] else []))
    searchBlock s qp cur (b.refPyramid s r.1) bx by' (near ++ [b.auxVector s r.1 bx by' 0])

/-- The motion search of a CTU row: its blocks in raster order. -/
def Block.searchRow (b : Block) (s : Session) (qp row : Nat) (cur : Pyramid) (e : PoolEntry) (refs : List PoolEntry) : Block :=
  let rows := (List.range (cdiv (ssH s) 16)).filter fun y => y / 4 == row
  b.each (rows.flatMap fun y => (List.range (blocksAcross s)).map fun x => (x, y)) fun b p =>
    b.putVectors s e p.1 p.2 (b.searchVectors s qp cur e refs p.1 p.2)

/-! Rows under the cap (R293 to R295). -/

/-- The bytes that R295 keeps back before a CTU of a slice. -/
def encodeReserve (s : Session) (ctu slice : Nat) : Nat := 2 * (enCtus s - 1 - ctu) + 64 * (enSlices s - 1 - slice) + 16

/-- A row in progress: its bytes so far, what the coder has made, and CAP_CTU. -/
structure RowRun where
  out : List Byte
  coder : Nat
  cap : Nat
  deriving DecidableEq, Repr

/-- One CTU: coded normally while R295 holds, minimal from the first at which it does not. `before` are the picture's
bytes before the row. -/
def codeOne (c : Cmd) (s : Session) (before slice : Nat) (work : Nat → Nat → CtuWork) (r : RowRun) (ctu : Nat) : RowRun :=
  let w := work ctu r.coder
  let normal := Config.codeCtu w
  if r.cap = 0xFFF ∧ before + r.out.length + normal.bytes.length + encodeReserve s ctu slice ≤ enCap c then
    { r with out := r.out ++ normal.bytes, coder := normal.coder }
  else
    let least := Config.minimalCtu w
    { out := r.out ++ least.bytes.take 2, coder := least.coder, cap := if r.cap = 0xFFF then ctu else r.cap }

/-- The row begins a slice. -/
def EncRun.beginsSlice (r : EncRun) (s : Session) : Bool :=
  r.row == (if r.slices = 0 then 0 else enSliceEnd s (r.slices - 1))

/-- The row's headers: the access unit's before the first row, the slice's before the slice's first. Their bounds are what
MINCAP and the reserve leave room for (R290, R295). (DEDUCED, log entry 96) -/
def EncRun.heads (r : EncRun) (c : Cmd) (s : Session) : List Byte :=
  (if r.row = 0 then (Config.unitHead s.cfg c.pb r.idr s.decoded).take 496 else []) ++
    (if r.beginsSlice s then (Config.sliceHead s.cfg c.pb r.idr s.decoded r.slices r.coder).take 64 else [])

/-- What the CTUs of a picture are coded from (R292). -/
def Block.ctuWork (b : Block) (c : Cmd) (s : Session) (r : EncRun) (source : List Nat) (e : PoolEntry)
    (refs : List PoolEntry) (ctu coder : Nat) : CtuWork :=
  let across := cdiv (ssW s) 64
  let blocks := (List.range 16).map fun k => (ctu % across * 4 + k % 4, ctu / across * 4 + k / 4)
  { cfg := s.cfg, pb := c.pb, idr := r.idr, picture := s.decoded, qp := r.qp, ctu := ctu, coder := coder, source := source,
    vectors := (blocks.filter fun p => p.1 < blocksAcross s && p.2 < cdiv (ssH s) 16).flatMap fun p =>
      (List.range refs.length).map fun i => b.auxVector s e p.1 p.2 i
    refs := refs.map (b.poolBytes s) }

/-- The bytes of a row, and the run's coder and CAP_CTU after it. (DEDUCED, log entry 96) -/
def Block.codeRow (b : Block) (c : Cmd) (s : Session) (r : EncRun) (source : List Nat) (e : PoolEntry)
    (refs : List PoolEntry) : RowRun :=
  let across := cdiv (ssW s) 64
  let start : RowRun := { out := r.heads c s, coder := r.coder, cap := r.cap }
  let x := (List.range across).foldl (fun acc i =>
    codeOne c s c.cursor r.slices (b.ctuWork c s r source e refs) acc (r.row * across + i)) start
  if r.row + 1 = enRows s then { x with out := x.out ++ (Config.pictureEnd s.cfg x.coder).take 16 } else x

/-- The reconstruction is stored: its samples, its vectors, and its half and quarter planes (R292). -/
def Block.storeCoded (b : Block) (s : Session) (e : PoolEntry) (coder : Nat) : Block :=
  let f := fun (plane x y : Nat) => Config.reconstruct s.cfg coder plane x y % 2 ^ ssDepth s
  let luma := (List.range (ssH s)).flatMap fun y => (List.range (ssW s)).map fun x => f 0 x y
  let p := pyramid s luma
  let aux := readBytes (b.bufGet [e.aux]) 0 (vectorBytes s) ++ (p.half ++ p.quarter).map (BitVec.ofNat 8)
  b.storePic s e f aux

/-- The picture is complete. -/
def Block.encodeEnd (b : Block) (id : Nat) (c : Cmd) (n : Nat) (s : Session) (r : EncRun) : Block :=
  let first := firstGopOf s r.idr
  let hist := some (r.qpavg, c.cursor)
  let b := b.setSess n
    { s with
      pool := encodeMarks s r.entry, decoded := s.decoded + 1, sinceIdr := if r.idr then 1 else s.sinceIdr + 1,
      needIdr := false, firstGop := first, lastIdr := if r.idr then hist else s.lastIdr,
      lastP := if r.idr then s.lastP else hist }
  let b := match s.pool[r.entry]? with
    | some e => b.storeCoded s e r.coder
    | none => b
  (b.satAdd (CDC_SESS n 0x4) 0 32 1).endWith id c stDone (encodeResult c.cursor r.exh r.cap r.idr first false r.qpavg)

/-- Bytes of a byte string operand from place `p` on. -/
def stringBytes (p : Nat) : List Byte → List (TByte × Nat)
  | [] => []
  | v :: vs => ({ s := [p, 0, 0, 0, 0, 0], part := 0 }, v.toNat) :: stringBytes (p + 1) vs

/-- Write bytes of the destination of a command, the cursor past them; the status where one may not be written. The
commands that write so have no traversal in the spec: the CURSOR of their progress word is the bytes written to TB.
(DESIGN CHOICE, log entry 83) -/
def Block.putString (b : Block) (c : Cmd) (p : Nat) (xs : List Byte) : Except Nat (Block × Cmd) :=
  match (Mv.start b 0 c).putAll (stringBytes p xs) with
  | .ok m =>
    .ok (m.tallied, { m.c with cursor := p + xs.length })
  | .error (.stop st) => .error st
  | .error _ => .error stProtect

/-- The picture in progress is discarded: its entry becomes FREE, and the next picture is an IDR (R291, R296). -/
def Session.dropCoded (s : Session) (entry : Nat) : Session :=
  { s with needIdr := true, pool := poolMod s.pool entry fun e => { e with mark := .free } }

/-- One row is coded (R292 to R295): its motion search, its CTUs, its bytes in TB, the QP of the next row. -/
def Block.encodeRow (b : Block) (id : Nat) (c : Cmd) (n : Nat) (s : Session) (r : EncRun) : Block :=
  match b.readLuma c s, b.readChroma c s, s.pool[r.entry]? with
  | some luma, some chroma, some e => b.guard (r.row < enRows s && r.row < enSliceEnd s r.slices) fun b =>
    let refs := encodeRefs s r.idr
    let b := b.searchRow s r.qp r.row (pyramid s luma) e refs
    let x := b.codeRow c s r (luma ++ chroma) e refs
    match b.putString c c.cursor x.out with
    | .error st => (b.setSess n (s.dropCoded r.entry)).endWith id c st encodeNone
    | .ok (b, c) =>
      let q := if enMode c then rowQp c (enRows s) r.row c.cursor r.qp r.exh else (enQpInit c, 0xFF)
      let r := { r with row := r.row + 1, sum := r.sum + r.qp, qp := q.1, exh := q.2, cap := x.cap, coder := x.coder }
      b.setCmd id { c with scratch := r.pack }
  | _, _, _ => (b.setSess n (s.dropCoded r.entry)).endWith id c stProtect encodeNone

/-- The work of an ENCODE: it begins, or codes its next row. -/
def encodeWork (id : Nat) (c : Cmd) (b : Block) : Block :=
  let n := cdNum c.pb
  match b.unitStatus c, b.sess n with
  | some st, _ => b.endWith id c st encodeNone
  | none, none => b.endWith id c stMalformed encodeNone
  | none, some s => match encRun c with
    | some r => b.encodeRow id c n s r
    | none => match b.encodeStop c s with
      | some st => b.endWith id c st encodeNone
      | none =>
        let x := b.encodeBegin n s c
        let c := { c with scratch := x.2.pack }
        match x.1.sess n with
        | some s => (x.1.setCmd id c).encodeRow id c n s x.2
        | none => b

/-- CODEC ENCODE (R290 to R296): each turn of its work codes one row. -/
def execEncode (t : TStep) (s : State) : Host.Outcome State Fault Refusal :=
  s.upd (tensorRow specCodec (some 0) (codecRow 4 encodeWork) t)

/-- A slice is complete (R293): its table entry, its counter; the last one completes the picture. -/
def Block.sliceDone (b : Block) (id : Nat) (c : Cmd) (off : Nat) : Block :=
  match encRun c, b.sess (cdNum c.pb) with
  | some r, some s => b.guard (r.row == enSliceEnd s r.slices && r.slices < enSlices s && off == c.cursor) fun b =>
      let b := match b.cmdLocal c (pbW c.pb 3 + 4 * r.slices) 4 with
        | some l => if pbW c.pb 3 = 0 then b else b.locWrite l 0 (leBytes 4 off)
        | none => b
      let b := match b.sliceCtr c with
        | some (some k) => b.signal k 1 c.epoch ((b.sqOf c).getD 0)
        | _ => b
      let r := { r with slices := r.slices + 1, sliceBytes := off }
      let c := { c with scratch := r.pack }
      if r.slices = enSlices s then b.encodeEnd id c (cdNum c.pb) s r else b.setCmd id c
  | _, _ => b

/-- ENCODE_SLICE_DONE (R293). -/
def execEncodeSliceDone (id off : Nat) (s : State) : Host.Outcome State Fault Refusal :=
  s.upd fun b => b.whenLive fun b => b.workOn id (fun c => c.op == .codec && cdCmd c.pb == 4) fun c b => b.sliceDone id c off

/-! Resets (R283, R296, R299). -/

/-- What an ENCODE leaves when it is ended before its last slice: complete slices only, the bytes after them undefined,
its picture discarded; one that has not begun leaves no slice. The session's next picture is an IDR (R291, R296). -/
def Block.encodeCut (b : Block) (c : Cmd) : Block × Cmd :=
  match encRun c, b.sess (cdNum c.pb) with
  | some r, some s =>
    let b := match b.putString c r.sliceBytes (leBytes (c.cursor - r.sliceBytes) b.fresh) with
      | .ok x => x.1.used
      | .error _ => b
    let b := b.setSess (cdNum c.pb) (s.dropCoded r.entry)
    let res := encodeResult r.sliceBytes r.exh r.cap r.idr (firstGopOf s r.idr) true r.qpavg
    (b, { c with cursor := r.sliceBytes, result := BitVec.ofNat 56 res })
  | none, some s =>
    if cdCmd c.pb = 4 ∧ cdUnit c.pb = 0 then
      (if ssEnc s then b.setSess (cdNum c.pb) { s with needIdr := true } else b,
        { c with result := BitVec.ofNat 56 (encodeResult 0 0xFF 0xFFF false false true 0) })
    else (b, c)
  | _, none => (b, c)

/-- A CODEC command is ended by a reset or a teardown. -/
def Block.cutCodec (b : Block) (id : Nat) (c : Cmd) (st : Nat) : Block :=
  let x := b.encodeCut c
  (x.1.setCmd id x.2).endCmd id x.2 st

end Sys2Proof.Machine
end

