-- ==== Sys2Proof/Machine/Records.lean ====
section
/-! DEFINITION. The record envelope (10.7) and its commands RNEXT and WRAP (10.8). -/

namespace Sys2Proof.Machine

/-! The envelope (R300, Tables 10.11 and 10.12). -/

/-- Bytes of a record with a payload of `n` bytes. -/
def recordBytes (n : Nat) : Nat := 32 + cdiv n 8 * 8 + cdiv (4 * cdiv n 4096) 8 * 8 + 8

/-- The longest payload. -/
def recordMax : Nat := 4128768

/-- A KIND that Table 10.12 lists. -/
def kindOk (k : Nat) : Bool := (1 ≤ k && k ≤ 9) || (0x80 ≤ k && k ≤ 0xFF)

/-- A header, as read. -/
structure RecHdr where
  kind : Nat
  flags : Nat
  stream : Nat
  len : Nat
  stamp : Nat
  seq : Nat
  deriving DecidableEq, Repr

/-- A field of bytes. -/
def le (xs : List Byte) (o n : Nat) : Nat := leNat ((xs.drop o).take n)

/-- The header that 32 bytes hold, where they are a valid one (R300). -/
def header (xs : List Byte) : Option RecHdr :=
  if xs.length = 32 ∧ le xs 0 4 = 0x7F4F4E4C ∧ le xs 0x1C 4 = crc32c (xs.take 28) ∧ le xs 4 1 = 1 ∧
      le xs 0xC 4 ≤ recordMax then
    some { kind := le xs 5 1, flags := le xs 6 2, stream := le xs 8 2, len := le xs 0xC 4, stamp := le xs 0x10 8,
           seq := le xs 0x18 4 }
  else none

/-- The CRCs of the 4,096-byte chunks of a payload. -/
def chunkCrcs (xs : List Byte) : List Nat :=
  (List.range (cdiv xs.length 4096)).map fun i => crc32c ((xs.drop (4096 * i)).take 4096)

/-- The chunks of a record whose CRC fails. -/
def badChunks (h : RecHdr) (record : List Byte) : List Nat :=
  let payload := (record.drop 32).take h.len
  let table := 32 + cdiv h.len 8 * 8
  ((chunkCrcs payload).zipIdx.filter fun p => le record (table + 4 * p.2) 4 ≠ p.1).map (·.2)

/-- The trailer does not match (R301). -/
def trailerBad (h : RecHdr) (record : List Byte) : Bool :=
  let o := recordBytes h.len - 8
  le record o 4 ≠ 0x4C4E4F7F || le record (o + 4) 4 ≠ recordBytes h.len

/-- A record. -/
def buildRecord (h : RecHdr) (payload : List Byte) : List Byte :=
  let n := payload.length
  let hdr := leBytes 4 0x7F4F4E4C ++ leBytes 1 1 ++ leBytes 1 h.kind ++ leBytes 2 h.flags ++ leBytes 4 h.stream ++
    leBytes 4 n ++ leBytes 8 h.stamp ++ leBytes 4 h.seq
  let crcs := chunkCrcs payload
  hdr ++ leBytes 4 (crc32c hdr) ++ payload ++ List.replicate (cdiv n 8 * 8 - n) 0 ++ crcs.flatMap (leBytes 4) ++
    List.replicate (cdiv (4 * crcs.length) 8 * 8 - 4 * crcs.length) 0 ++ leBytes 4 0x4C4E4F7F ++ leBytes 4 (recordBytes n)

/-! RNEXT (R301, R302). -/

/-- What a search for the next record gives (R301). -/
inductive RecFound where
  /-- no valid header at `pos`, the next place that may hold one -/
  | lost (pos next : Nat) (exp : Option Nat)
  | partly (pos : Nat) (h : RecHdr) (exp : Option Nat)
  | reserved (pos : Nat) (h : RecHdr) (exp : Option Nat)
  | found (pos : Nat) (h : RecHdr) (gap exp : Nat)
  deriving DecidableEq, Repr

/-- The next multiple of 8 from `q` on that holds a valid header. -/
def nextHeader (xs : List Byte) : Nat → Nat → Option Nat
  | 0, _ => none
  | fuel + 1, q => if (header ((xs.drop q).take 32)).isSome then some q else nextHeader xs fuel (q + 8)

/-- The loop of R301: padding records are passed over. `exp` is the expected SEQ, none for the first record.
(DEDUCED, log entry 49) -/
def findRecord (xs : List Byte) : Nat → Nat → Option Nat → RecFound
  | 0, pos, exp => .lost pos (xs.length / 8 * 8) exp
  | fuel + 1, pos, exp =>
    match header ((xs.drop pos).take 32) with
    | none => .lost pos ((nextHeader xs (xs.length / 8) (pos + 8)).getD (xs.length / 8 * 8)) exp
    | some h =>
      if xs.length < pos + recordBytes h.len then .partly pos h exp
      else if !kindOk h.kind then .reserved pos h exp
      else
        let gap := match exp with
          | some e => (h.seq + 2 ^ 32 - e) % 2 ^ 32
          | none => 0
        let exp := (h.seq + 1) % 2 ^ 32
        if h.kind = 0x09 then findRecord xs fuel (pos + recordBytes h.len) (some exp) else .found pos h gap exp

/-- The RNEXT result above its status. -/
def rnextResult (next kind : Nat) (trailer part : Bool) : Nat :=
  next % 2 ^ 32 * 2 ^ 24 + kind % 256 * 2 ^ 16 + b2n trailer * 2 ^ 9 + b2n part * 2 ^ 8

/-- The report (Table 10.13). -/
def report (stamp seq len damage skipped stream flags gap : Nat) : List Byte :=
  leBytes 8 stamp ++ leBytes 4 seq ++ leBytes 4 len ++ leBytes 4 damage ++ leBytes 4 skipped ++ leBytes 2 stream ++
    leBytes 2 flags ++ leBytes 4 gap

/-- Write the report of an RNEXT, where it has one. -/
def Block.putReport (b : Block) (c : Cmd) (xs : List Byte) : Block :=
  match b.cmdLocal c (pbW c.pb 5) 32 with
  | some l => if pbW c.pb 5 = 0 then b else b.locWrite l 0 xs
  | none => b

/-- The record stream of a command. -/
def recNo (c : Cmd) : Nat := cdNum c.pb

/-- The record stream expects a SEQ from now on. -/
def Block.expectSeq (b : Block) (c : Cmd) (exp : Nat) : Block :=
  (b.setReg (CDC_REC (recNo c) 0x8) (BitVec.ofNat 32 exp)).setFk fun k =>
    { k with codec := { k.codec with firstRec := SMap.set noneIn k.codec.firstRec (recNo c) false } }

/-- Padding records that were passed over have moved the expected SEQ. (DEDUCED, log entry 49) -/
def Block.expectMaybe (b : Block) (c : Cmd) (exp : Option Nat) : Block :=
  match exp with
  | some e => b.expectSeq c e
  | none => b

/-- The first damaged place of a record with bad chunks. -/
def badPos (pos : Nat) (bad : List Nat) : Option Nat := bad.head?.map fun i => pos + 32 + 4096 * i

/-- RNEXT delivers a record: its report is written. -/
def Block.recDone (b : Block) (c : Cmd) (h : RecHdr) (gap : Nat) (damage : Option Nat) : Block :=
  b.putReport c (report h.stamp h.seq h.len (damage.getD 0xFFFFFFFF) 0 h.stream h.flags gap)

/-- DAMAGED of CDC_REC_ERR. -/
def Block.recDamaged (b : Block) (c : Cmd) (yes : Bool) : Block :=
  if yes then b.satAdd (CDC_REC (recNo c) 0xC) 16 16 1 else b

/-- Delivery without CHAIN (R302). -/
def Block.deliverPlain (b : Block) (id : Nat) (c : Cmd) (pos : Nat) (h : RecHdr) (gap : Nat) (record : List Byte) :
    Block :=
  let bad := badChunks h record
  let res := rnextResult (pos + recordBytes h.len) h.kind (trailerBad h record) false
  if !byteString c.tb || dSize c.tb 0 < h.len then b.endWith id c stMalformed (rnextResult pos h.kind (trailerBad h record) false)
  else match b.putString c 0 ((record.drop 32).take h.len) with
    | .error st => b.endWith id c st res
    | .ok (b, c) =>
      ((b.recDone c h gap (badPos pos bad)).recDamaged c (!bad.isEmpty)).endWith id c
        (if bad.isEmpty then stDone else stCorrupt) res

/-- The extents and the type of a RAW band's plane: components and bytes of a sample (Tables 9.6 and 10.12). -/
def bandPlane (out plane : Nat) : Option (Nat × Nat) :=
  match out, plane with
  | 0, 0 => some (1, 2)
  | 1, 0 => some (3, 1)
  | 2, 0 => some (3, 2)
  | 3, 0 => some (1, 1)
  | 4, 0 => some (1, 1)
  | 4, 1 => some (2, 1)
  | 5, 0 => some (1, 2)
  | 5, 1 => some (2, 2)
  | _, _ => none

/-- The subheader of a RAW band. -/
structure Band where
  k : Nat
  e : Nat
  w : Nat
  row0 : Nat
  rows : Nat
  deriving DecidableEq, Repr

/-- The subheader fits the payload and TB. -/
def bandOf (d : Desc) (payload : List Byte) : Option Band :=
  match bandPlane (le payload 0 1) (le payload 1 1) with
  | none => none
  | some (k, e) =>
    let w := le payload 4 2
    let h := le payload 6 2
    let r0 := le payload 8 2
    let n := le payload 10 2
    if isPlane d e k w h && r0 + n ≤ h && 16 + n * w * k * e ≤ payload.length then
      some { k := k, e := e, w := w, row0 := r0, rows := n }
    else none

/-- Bytes of a band's row. -/
def Band.stride (x : Band) : Nat := x.w * x.k * x.e

/-- A row of the band has a byte in a bad chunk. -/
def Band.badRow (x : Band) (bad : List Nat) (r : Nat) : Bool :=
  bad.any fun i => overlaps (16 + r * x.stride) x.stride (4096 * i) 4096

/-- The nearest good row from `r` upwards. -/
def Band.goodRow (x : Band) (bad : List Nat) : Nat → Option Nat
  | 0 => if x.badRow bad 0 then none else some 0
  | r + 1 => if x.badRow bad (r + 1) then x.goodRow bad r else some (r + 1)

/-- The bytes that a row takes: its own, those of the nearest good row above, or mid-grey (R302). -/
def Band.rowBytes (x : Band) (bad : List Nat) (payload : List Byte) (r : Nat) : List Byte :=
  match x.goodRow bad r with
  | some q => (payload.drop (16 + q * x.stride)).take x.stride
  | none => (List.replicate (x.w * x.k) (leBytes x.e (if x.e = 1 then 0x80 else 0x8000))).flatten

/-- The bytes of TB's row ROW0 + `r`, with the pad bytes that each pixel's tile row takes (R172). -/
def Band.puts (x : Band) (bad : List Nat) (payload : List Byte) (d : Desc) (r : Nat) : List (TByte × Nat) :=
  let row := x.rowBytes bad payload r
  let n := x.k * x.e
  (List.range x.w).flatMap fun i =>
    let s := fun (k : Nat) => storeIx d [k, i, x.row0 + r, 0, 0, 0]
    (((row.drop (i * n)).take n).zipIdx.map fun v => (({ s := s (v.2 / x.e), part := v.2 % x.e } : TByte), v.1.toNat)) ++
      padBytes d (s 0)

/-- Delivery of a RAW band with CHAIN (R302). -/
def Block.deliverBand (b : Block) (id : Nat) (c : Cmd) (pos : Nat) (h : RecHdr) (gap : Nat) (record : List Byte) :
    Block :=
  let bad := badChunks h record
  let payload := (record.drop 32).take h.len
  let res := rnextResult (pos + recordBytes h.len) h.kind (trailerBad h record) false
  let fin := fun (b : Block) (c : Cmd) (st : Nat) (dmg : Option Nat) =>
    ((b.recDone c h gap dmg).recDamaged c (!bad.isEmpty)).endWith id c st res
  match bandOf c.tb payload with
  | none => fin b c stCorrupt (some ((badPos pos bad).getD (pos + 32)))
  | some x =>
    if bad.contains 0 then fin b c stCorrupt (badPos pos bad)
    else
      match (Mv.start b 0 c).putAll
          ((List.range x.rows).flatMap fun r => x.puts bad payload c.tb r) with
      | .error (.stop st) => b.endWith id c st res
      | .error _ => b.endWith id c stProtect res
      | .ok m => fin m.tallied m.c (if bad.isEmpty then stDone else stConcealed) (badPos pos bad)

/-- The codec of a KIND (R302). -/
def kindCodec (k : Nat) : Nat := if k = 3 then 0 else if k = 4 then 1 else 2

/-- CHAIN names an open decode session of the record's codec and the command's context (R301). -/
def Block.chainOk (b : Block) (c : Cmd) (kind : Nat) : Bool :=
  match b.sess (pbW c.pb 2) with
  | some s => !ssEnc s && ssCodec s == kindCodec kind && b.ctxOfCmd c == some s.ctx
  | none => false

/-- Delivery by a decode of the payload, whose bad chunks are damage (R298, R302). A record that does not fit its output
leaves NEXT_POS at the record; one whose stream is refused ends with the decode's status (R284, R285). -/
def Block.deliverDecode (b : Block) (id : Nat) (c : Cmd) (pos : Nat) (h : RecHdr) (gap : Nat) (record : List Byte) : Block :=
  let n := pbW c.pb 2
  let chunks := badChunks h record
  let bad := chunks.map fun i => (4096 * i, 4096)
  let xs := (record.drop 32).take h.len
  let res := fun (next : Nat) => rnextResult next h.kind (trailerBad h record) false
  let past := pos + recordBytes h.len
  match b.sess n with
  | none => b.endWith id c stMalformed (res pos)
  | some s =>
    let u := readUnit s xs
    if !b.chainOk c h.kind then b.endWith id c stMalformed (res pos)
    else if u.refused s xs.length bad then
      ((b.recDone c h gap (badPos pos chunks)).recDamaged c (!chunks.isEmpty)).endWith id c stMalformed (res past)
    else match b.decodeUnfit c n (pbW c.pb 3) (pbW c.pb 4) s u with
      | some st => b.endWith id c st (res (if st = stMalformed then pos else past))
      | none =>
        let r := b.decodeString n s u xs bad
        let o := { r.2 with pos := firstDamage r.2.pos (chunks.head?.map (4096 * ·)) }
        let b := (r.1.recDone c h gap (o.pos.map (pos + 32 + ·))).recDamaged c o.pos.isSome
        b.decodeEnd id c n (pbW c.pb 3) (pbW c.pb 4) s.kept xs bad true o (res past)

/-- The report of an RNEXT that finds no record, or part of one: what it does not state stays open. -/
def Block.reportNone (b : Block) (c : Cmd) (h : Option RecHdr) (damage skipped : Nat) : Block :=
  let v := b.fresh
  let w := fun (i n : Nat) => v / 2 ^ (32 * i) % 2 ^ n
  (b.used).putReport c (match h with
    | some h => report h.stamp h.seq h.len damage skipped h.stream h.flags (w 6 32)
    | none => report (w 0 64) (w 2 32) (w 3 32) damage skipped (w 4 16) (w 5 16) (w 6 32))

/-- RNEXT (R301). (DEDUCED, log entry 49) -/
def Block.rnext (b : Block) (id : Nat) (c : Cmd) : Block :=
  match b.readString c c.ta with
  | none => b.endWith id c stProtect 0
  | some xs =>
    let pos := pbW c.pb 1
    let exp := if SMap.get noneIn b.fk.codec.firstRec (recNo c) then none else some (b.reg (CDC_REC (recNo c) 0x8)).toNat
    if pbW c.pb 5 ≠ 0 ∧ (b.cmdLocal c (pbW c.pb 5) 32).isNone then b.endWith id c stProtect 0
    else match findRecord xs (xs.length / 8 + 1) pos exp with
      | .lost p next e =>
        let kind := b.fresh
        (((b.used.expectMaybe c e).satAdd (CDC_REC (recNo c) 0xC) 0 16 1).reportNone c none p ((next + 2 ^ 32 - p) % 2 ^ 32)).endWith id c stCorrupt
          (rnextResult next kind false false)
      | .partly p h e => ((b.expectMaybe c e).reportNone c (some h) 0xFFFFFFFF 0).endWith id c stDone (rnextResult p h.kind false true)
      | .reserved p h e => (b.expectMaybe c e).endWith id c stMalformed (rnextResult (p + recordBytes h.len) h.kind false false)
      | .found p h gap exp =>
        let record := (xs.drop p).take (recordBytes h.len)
        let b := b.expectSeq c exp
        if bit c.pb 0 && h.kind == 1 then b.deliverBand id c p h gap record
        else if bit c.pb 0 && 2 ≤ h.kind && h.kind ≤ 4 then b.deliverDecode id c p h gap record
        else b.deliverPlain id c p h gap record

/-- The work of an RNEXT (R301). -/
def rnextWork (id : Nat) (c : Cmd) (b : Block) : Block :=
  match b.unitStatus c with
  | some st => b.endWith id c st (rnextResult (pbW c.pb 1) 0 false false)
  | none => b.rnext id c

/-- CODEC RNEXT (R300 to R302). -/
def execRnext (t : TStep) (s : State) : Host.Outcome State Fault Refusal :=
  s.upd (tensorRow specCodec (some 0) (codecRow 5 rnextWork) t)

/-! WRAP (R303). -/

/-- The header that a WRAP writes. -/
def Block.wrapHeader (b : Block) (c : Cmd) : RecHdr :=
  { kind := pbW c.pb 1 / 256 % 256, flags := pbW c.pb 1 / 65536, stream := pbW c.pb 2, len := dSize c.ta 0,
    stamp := if bit c.pb 0 then b.now else pbW c.pb 3 + 2 ^ 32 * pbW c.pb 4,
    seq := (b.reg (CDC_REC (recNo c) 0x4)).toNat }

/-- WRAP (R303). -/
def Block.wrap (b : Block) (id : Nat) (c : Cmd) : Block :=
  let h := b.wrapHeader c
  let total := recordBytes h.len
  let res := fun (seq size : Nat) => seq * 2 ^ 24 + size % 2 ^ 24
  if !kindOk h.kind || recordMax < h.len || dSize c.tb 0 < total then b.endWith id c stMalformed (res h.seq 0)
  else match b.readString c c.ta with
    | none => b.endWith id c stProtect (res h.seq 0)
    | some xs => match b.putString c 0 (buildRecord h xs) with
      | .error st => b.endWith id c st (res h.seq 0)
      | .ok (b, c) =>
        (b.setReg (CDC_REC (recNo c) 0x4) (BitVec.ofNat 32 (h.seq + 1))).endWith id c stDone (res h.seq total)

/-- The work of a WRAP (R303). -/
def wrapWork (id : Nat) (c : Cmd) (b : Block) : Block :=
  match b.unitStatus c with
  | some st => b.endWith id c st 0
  | none => b.wrap id c

/-- CODEC WRAP (R303). -/
def execWrap (t : TStep) (s : State) : Host.Outcome State Fault Refusal :=
  s.upd (tensorRow specCodec (some 0) (codecRow 6 wrapWork) t)

/-! Registers (Table 10.14). -/

/-- Commands held by a unit. -/
def Block.queuedCodec (b : Block) (u : CmdUnit) : Nat := b.queuedIn u

/-- CDC_SESS. -/
def Block.sessReg (b : Block) (n : Nat) : Word :=
  let q := b.queuedCodec (.session n) * 2 ^ 10
  match b.sess n with
  | none => BitVec.ofNat 32 (0xF * 2 ^ 18 + q)
  | some s => BitVec.ofNat 32
      (2 ^ 31 + b2n (ssEnc s) * 2 ^ 30 + ssCodec s * 2 ^ 28 + s.ctx % 64 * 2 ^ 22 + s.home % 16 * 2 ^ 18 +
        ssEntries s % 32 * 2 ^ 13 + q)

/-- CDC_REC. -/
def Block.recReg (b : Block) (n : Nat) : Word :=
  let q := b.queuedCodec (.records n)
  match SMap.find b.fk.codec.records n with
  | none => BitVec.ofNat 32 q
  | some ctx => BitVec.ofNat 32 (2 ^ 31 + ctx % 64 * 2 ^ 22 + q)

/-- CDC_STAT. -/
def Block.codecStat (b : Block) : Word :=
  BitVec.ofNat 32 (b.rf CDC_STAT 16 16 * 2 ^ 16 + b.fk.codec.records.length * 2 ^ 8 + b.fk.codec.sessions.length)

end Sys2Proof.Machine
end

