-- ==== Sys2Proof/Machine/LogFormat.lean ====
section
/-! DEFINITION. What the log store writes to flash (11.2): geometry and numbering, codewords and pages, anchors, journal records and checkpoints, and what makes a codeword good. -/

namespace Sys2Proof.Machine

/-! Geometry (LS_GEOM of Table 11.11). -/

def gmLuns (g : Word) : Nat := bits g 30 2 + 1
def gmPlanes (g : Word) : Nat := 2 ^ bits g 28 2
def gmPages (g : Word) : Nat := bits g 14 14
def gmBlocks (g : Word) : Nat := bits g 0 14

/-- Spare blocks of each plane of each LUN (R321). -/
def gmSpares (g : Word) (pct : Nat) : Nat := cdiv (gmBlocks g * pct) 100

/-- Data bytes of a stripe unit (R309). -/
def gmUnit (g : Word) : Nat := gmPlanes g * 16384

/-- A segment is numbered by its target, LUN and block; the spare blocks are the last of a plane.
(DESIGN CHOICE, log entry 50) -/
def segTarget (n : Nat) : Nat := n / 65536
def segLun (n : Nat) : Nat := n / 16384 % 4
def segBlock (n : Nat) : Nat := n % 16384
/-- DESIGN CHOICE, log entry 50. -/
def segNo (target lun block : Nat) : Nat := target * 65536 + lun * 16384 + block

/-- A block: its segment and its plane. -/
def blockKey (seg plane : Nat) : Nat := seg * 4 + plane

/-- A plane of a LUN. -/
def planeKey (seg plane : Nat) : Nat := segTarget seg * 16 + segLun seg * 4 + plane

/-- A page of a stripe unit: the unit's segment, its number and the plane. -/
def pageKey (seg unit plane : Nat) : Nat := (seg * 2 ^ 14 + unit) * 4 + plane

/-! Codewords (R308, Table 11.2). -/

/-- What the metadata of a codeword says, beside its CRC. -/
structure WordInfo where
  kind : Nat
  stream : Nat
  valid : Nat
  gseq : Nat
  off : Nat
  stamp : Nat
  store : Nat
  deriving DecidableEq, Repr

/-- Metadata bytes 0x00 to 0x1B. -/
def infoBytes (i : WordInfo) : List Byte :=
  leBytes 1 i.kind ++ leBytes 1 i.stream ++ leBytes 2 i.valid ++ leBytes 8 i.gseq ++ leBytes 4 i.off ++
    leBytes 3 (i.off / 2 ^ 32) ++ leBytes 1 0 ++ leBytes 4 i.stamp ++ leBytes 4 i.store

/-- Data padded to a codeword. What the padding holds is not stated: a free value. (DESIGN CHOICE, log entry 92) -/
def padWord (i : WordInfo) (data : List Byte) : List Byte :=
  data ++ (List.range (4096 - data.length)).map (Config.padding (infoBytes i))

/-- A codeword. -/
def buildWord (i : WordInfo) (data : List Byte) : Codeword :=
  let d := padWord i data
  let m := infoBytes i
  let info := m ++ leBytes 4 (crc32c (d ++ m))
  { data := d, info := info, parity := Config.ldpc (d ++ info) }

/-- The metadata of a codeword. -/
def Codeword.says (w : Codeword) : WordInfo :=
  { kind := le w.info 0 1, stream := le w.info 1 1, valid := le w.info 2 2, gseq := le w.info 4 8,
    off := le w.info 12 4 + 2 ^ 32 * le w.info 16 3, stamp := le w.info 20 4, store := le w.info 24 4 }

/-- A codeword is good: it decodes, and its CRC and STORE match (R309). -/
def Codeword.good (w : Codeword) (store : Nat) : Bool :=
  w.parity == Config.ldpc (w.data ++ w.info) && le w.info 28 4 == crc32c (w.data ++ w.info.take 28) &&
    (w.says).store == store

/-- The bytes of a page: four codewords from its first byte on, and 0xFF in the spare bytes after them (R308). -/
def pageBytes (spare : Nat) (ws : List Codeword) : List Byte :=
  let x := ws.flatMap fun w => w.data ++ w.info ++ w.parity
  x ++ List.replicate (16384 + spare - x.length) 0xFF

/-- The codewords of data that starts at an offset of a stream, four to a page, up to `n` of them. -/
def dataWords (i : WordInfo) (bytes : List Byte) (n : Nat) : List Codeword :=
  (List.range n).map fun k =>
    let d := (bytes.drop (4096 * k)).take 4096
    buildWord { i with valid := d.length, off := i.off + min (4096 * k) bytes.length } d

/-- The pages of a stripe unit, plane by plane (R309). Which plane holds the unit's first bytes is not stated.
(DESIGN CHOICE, log entry 92) -/
def unitPages (g : Word) (i : WordInfo) (bytes : List Byte) : List (List Codeword) :=
  let ws := dataWords i bytes (4 * gmPlanes g)
  (List.range (gmPlanes g)).map fun p => (ws.drop (4 * p)).take 4

/-- Write the pages of a stripe unit. -/
def putPages (m : SMap (List Codeword)) (seg unit : Nat) : Nat → List (List Codeword) → SMap (List Codeword)
  | _, [] => m
  | plane, ws :: rest => putPages (SMap.put m (pageKey seg unit plane) ws) seg unit (plane + 1) rest

/-- A codeword of a stripe unit, as it lies on flash. -/
def unitWord (m : SMap (List Codeword)) (seg unit k : Nat) : Option Codeword :=
  (SMap.find m (pageKey seg unit (k / 4))).bind fun ws => ws[k % 4]?

/-- A data byte of a stripe unit; an erased page holds 0xFF. -/
def unitByte (m : SMap (List Codeword)) (seg unit i : Nat) : Byte :=
  match unitWord m seg unit (i / 4096) with
  | some w => w.data.getD (i % 4096) 0xFF
  | none => 0xFF

/-- The pages of a segment are erased. -/
def erasePages (m : SMap (List Codeword)) (seg : Nat) : SMap (List Codeword) := SMap.keep m fun k _ => k / 2 ^ 16 ≠ seg

/-- What a programmed stripe unit holds, by its good codewords: the first offset and the bytes; none where one of its
codewords is not good or belongs to no group (R323). -/
def unitHolds (m : SMap (List Codeword)) (g : Word) (store seg unit gseq : Nat) : Option (Nat × Nat) :=
  let ws := (List.range (4 * gmPlanes g)).mapM fun k => unitWord m seg unit k
  match ws with
  | some (w :: rest) =>
    if (w :: rest).all fun x => x.good store && x.says.kind == 1 && x.says.gseq == gseq then
      some (w.says.off, ((w :: rest).map fun x => x.says.valid).sum)
    else none
  | _ => none

/-! Anchors (R310, Table 11.3). -/

/-- The 64 bytes of an anchor. -/
def anchorBytes (x : Anchor) : List Byte :=
  let h := leBytes 4 0x4C53414E ++ leBytes 4 (1 + b2n x.clean * 2 ^ 16) ++ leBytes 8 x.storeId.toNat ++ leBytes 8 x.seq ++
    leBytes 4 x.geom.toNat ++ leBytes 1 x.sparePct ++ leBytes 1 x.stripe ++ leBytes 2 0 ++ leBytes 8 x.targets ++
    leBytes 4 (x.ckptSeg % 2 ^ 22) ++ leBytes 4 x.ckptSeq ++ leBytes 4 (x.jrnSeg % 2 ^ 22) ++ List.replicate 8 0
  h ++ leBytes 4 (crc32c h)

/-- The metadata of a codeword that holds no stream's data. Its GSEQ and OFF are not stated, nor VALID of an anchor: free values.
(DESIGN CHOICE, log entry 92) -/
def systemInfo (kind stamp store : Nat) : WordInfo :=
  { kind := kind, stream := 0, valid := Config.systemField kind stamp 2, gseq := Config.systemField kind stamp 0,
    off := Config.systemField kind stamp 1, stamp := stamp, store := store }

/-- The codeword of an anchor: its 64 bytes, and 0 after them. -/
def anchorWord (x : Anchor) (stamp : Nat) : Codeword :=
  buildWord (systemInfo 4 stamp (x.storeId.toNat % 2 ^ 32)) (anchorBytes x ++ List.replicate 4032 0)

/-- An anchor codeword is valid: good, of KIND 4, with MAGIC and CRC. -/
def validAnchor (w : Codeword) (x : Anchor) : Bool :=
  w.good (x.storeId.toNat % 2 ^ 32) && w.says.kind == 4 && le w.data 0 4 == 0x4C53414E &&
    le w.data 60 4 == crc32c (w.data.take 60)

/-! The journal (R311, Table 11.6). -/

/-- The 32 bytes of a record. MEMBER and WIDTH, for which C has no room beside GOFF[23:0], lie in bytes 2 and 3.
(DESIGN CHOICE, log entry 92) -/
def recordOf (r : JRec) : List Byte :=
  let h := leBytes 1 r.type ++ leBytes 1 r.stream ++ leBytes 1 r.member ++ leBytes 1 r.width ++ leBytes 4 r.seq ++
    leBytes 8 r.a ++ leBytes 8 r.b ++ leBytes 4 (if r.type = 1 then r.c % 2 ^ 24 else r.c)
  h ++ leBytes 4 (crc32c h)

/-- A record of TYPE 0, which pads a page. -/
def JRec.pad : JRec := { type := 0, stream := 0, a := 0, b := 0, member := 0, width := 0, c := 0, seq := 0 }

/-- Records of a multi-plane page: 128 to a codeword. -/
def pageRecords (g : Word) : Nat := 512 * gmPlanes g

/-- The data bytes of a journal page: its records, padded with records of TYPE 0. -/
def journalData (g : Word) (rs : List JRec) : List Byte :=
  (rs ++ List.replicate (pageRecords g - rs.length) JRec.pad).flatMap recordOf

/-- The codewords of a journal page. -/
def journalPage (g : Word) (rs : List JRec) (stamp store : Nat) : List Codeword :=
  dataWords (systemInfo 2 stamp store) (journalData g rs) (4 * gmPlanes g)

/-! Checkpoints (R311, Tables 11.4 and 11.5). -/

/-- A segment entry. -/
def segEntry (x : Segment) : List Byte :=
  leBytes 4 (x.state + x.stream * 2 ^ 8 + x.member * 2 ^ 16 + x.width * 2 ^ 22) ++ leBytes 4 x.erases ++ leBytes 8 x.gseq ++
    leBytes 8 x.goff ++ leBytes 4 x.reads ++ leBytes 4 x.stamp

/-- A stream entry. -/
def streamEntry (x : Option LogStream) : List Byte :=
  match x with
  | none => List.replicate 64 0
  | some s =>
    leBytes 8 (1 + 2 * b2n s.ring) ++ leBytes 8 s.start ++ leBytes 8 s.endOff ++ leBytes 8 (s.groups.headD 0) ++
      leBytes 8 ((s.groups.getLast?).getD 0) ++ List.replicate 24 0

/-- A substitution entry. -/
def substEntry (key spare : Nat) : List Byte :=
  leBytes 8 (key / 4 % 2 ^ 22 + key % 4 * 2 ^ 22 + spare * 2 ^ 24)

/-- The history, 4 bits a block: the option learnt, 0xF where there is none. -/
def historyBytes (learnt : SMap Nat) (blocks : List Nat) : List Byte :=
  (List.range (cdiv blocks.length 2)).map fun i =>
    let v := fun (k : Nat) => match (blocks[k]?).bind (SMap.find learnt) with
      | some o => o % 16
      | none => 15
    BitVec.ofNat 8 (v (2 * i) + 16 * v (2 * i + 1))

/-- A checkpoint: its header, its tables and a CRC-32C over the whole. -/
def checkpointData (t : LogTables) (segs blocks : List Nat) (fresh : Nat → Segment) (seq jseq : Nat) : List Byte :=
  let x := leBytes 4 seq ++ leBytes 4 segs.length ++ leBytes 4 jseq ++
    (segs.flatMap fun n => segEntry ((SMap.find t.segs n).getD (fresh n))) ++
    ((List.range 32).flatMap fun s => streamEntry (SMap.find t.streams s)) ++
    (t.subst.flatMap fun e => substEntry e.1 e.2) ++ historyBytes t.learnt blocks
  x ++ leBytes 4 (crc32c x)

/-- The codewords of a checkpoint. -/
def checkpointWords (data : List Byte) (stamp store : Nat) : List Codeword :=
  dataWords (systemInfo 3 stamp store) data (cdiv data.length 4096)

end Sys2Proof.Machine
end

