-- ==== Sys2Proof/Machine/LogCore.lean ====
section
/-! DEFINITION. The tables of the log store (11.2, 11.5): what a journal record does to them, the journal and checkpoints that make them durable, targets and spares, groups, and the durable end of a stream. -/

namespace Sys2Proof.Machine

def Block.flash (b : Block) : Flash := b.ext.flash
def Block.setFlash (b : Block) (f : Flash → Flash) : Block := b.setExt fun e => { e with flash := f e.flash }

/-- The segment exists. -/
def Flash.hasSeg (f : Flash) (n : Nat) : Bool :=
  f.targets.testBit (segTarget n) && segLun n < gmLuns f.geom && segBlock n < gmBlocks f.geom - gmSpares f.geom f.sparePct

/-- The anchor area (R310). -/
def isAnchorSeg (n : Nat) : Bool := segLun n == 0 && segBlock n < 8

/-- A segment that no entry has been written for: DIRTY, or SYSTEM in the anchor area. -/
def segNew (n : Nat) : Segment :=
  { state := if isAnchorSeg n then 4 else 0, stream := 0, member := 0, width := 0, erases := 0, gseq := 0, goff := 0,
    reads := 0, stamp := 0, fill := [], dead := false, sick := false }

/-- How many targets a mask holds. -/
def Flash.targetCount (f : Flash) : Nat := ((List.range 64).filter f.targets.testBit).length

/-- Spare blocks that a plane starts with. -/
def Flash.spareStart (f : Flash) : Nat := gmSpares f.geom f.sparePct

/-- Their numbers: the last blocks of a plane. -/
def Flash.spareBlocks (f : Flash) : List Nat := (List.range f.spareStart).map (gmBlocks f.geom - f.spareStart + ·)

/-- The RETIRE record's spare where there is none: all ones. -/
def noSpare : Nat := 2 ^ 64 - 1

/-- Every segment of the store, by number. -/
def Flash.allSegs (f : Flash) : List Nat :=
  ((List.range 64).filter f.targets.testBit).flatMap fun t => (List.range (gmLuns f.geom)).flatMap fun l =>
    (List.range (gmBlocks f.geom - f.spareStart)).map fun k => segNo t l k

/-- LS_SEG_TOTAL. (DESIGN CHOICE, log entry 50) -/
def Flash.segTotal (f : Flash) : Nat :=
  f.targetCount * gmLuns f.geom * (gmBlocks f.geom - gmSpares f.geom f.sparePct)

/-- LS_MEM_NEED (R324), MiB. -/
def Flash.memNeed (f : Flash) : Nat :=
  let planes := f.targetCount * gmLuns f.geom * gmPlanes f.geom
  cdiv (2 ^ 20 + 32 * f.segTotal + planes * gmBlocks f.geom / 2 + 8 * (planes * f.spareStart)) (2 ^ 20)

/-- STORE_ID[31:0]. -/
def Flash.store (f : Flash) : Nat := f.storeId.toNat % 2 ^ 32

/-! Tables (R311). -/

def LogTables.seg (t : LogTables) (n : Nat) : Segment := (SMap.find t.segs n).getD (segNew n)
def LogTables.setSeg (t : LogTables) (n : Nat) (x : Segment) : LogTables := { t with segs := SMap.put t.segs n x }

/-- A segment that holds no group's data any more: DIRTY, or RETIRED. -/
def dirtySeg (x : Segment) : Segment := { x with state := if x.dead then 5 else 0, fill := [], gseq := 0, sick := false }

/-- Segments of a group, by member. -/
def LogTables.groupSegs (t : LogTables) (g : Nat) : List Nat :=
  ((t.segs.filter fun e => e.2.gseq == g && (e.2.state == 2 || e.2.state == 3)).mergeSort
    fun x y => x.2.member ≤ y.2.member).map (·.1)

/-- The groups of a stream that lie wholly below an offset: each but the newest ends where the next begins. -/
def LogTables.below (t : LogTables) (off : Nat) : List Nat → List Nat
  | g :: h :: rest => match (t.groupSegs h).head? with
    | some n => if (t.seg n).goff ≤ off then g :: t.below off (h :: rest) else []
    | none => []
  | _ => []

/-- The groups of a stream that still have segments. -/
def LogTables.held (t : LogTables) (gs : List Nat) : List Nat := gs.filter fun g => !(t.groupSegs g).isEmpty

/-- Segments no longer hold their group's data (R314, R315). -/
def LogTables.dirty (t : LogTables) (ns : List Nat) : LogTables := ns.foldl (fun t n => t.setSeg n (dirtySeg (t.seg n))) t

/-- START of a stream moves, and the groups wholly below it become DIRTY. -/
def LogTables.trim (t : LogTables) (s start : Nat) : LogTables :=
  match SMap.find t.streams s with
  | none => t
  | some x =>
    let t := t.dirty ((t.below start (t.held x.groups)).flatMap t.groupSegs)
    let x := { x with start := max x.start start, endOff := max x.endOff start, groups := t.held x.groups }
    { t with streams := SMap.put t.streams s x }

/-- The new segment of a group. -/
def LogTables.alloc (t : LogTables) (r : JRec) : LogTables :=
  let t := t.setSeg r.a { t.seg r.a with
    state := 2, stream := r.stream, member := r.member, width := r.width, gseq := r.b, goff := r.c, reads := 0, fill := [],
    sick := false }
  let grow := fun (x : LogStream) => if x.groups.contains r.b then x else { x with groups := x.groups ++ [r.b] }
  { t with streams := SMap.modify t.streams r.stream grow, gseq := max t.gseq r.b }

/-- The segment that a reclaim leaves behind: its destination before the commit, its source after it. -/
def Reclaim.left (r : Reclaim) : Nat := if r.stage = 1 then r.dst else r.src

/-- A reclaim ends with the segment that it leaves behind. -/
def LogTables.endReclaim (t : LogTables) (n : Nat) : LogTables :=
  { t with reclaim := t.reclaim.filter fun r => r.left ≠ n }

/-- A segment has been erased. -/
def LogTables.erase (t : LogTables) (n erases : Nat) : LogTables :=
  let x := t.seg n
  (t.setSeg n { dirtySeg x with state := if x.dead then 5 else 1, erases := erases, reads := 0 }).endReclaim n

/-- A reclaim's destination takes its source's place in the group (R322). -/
def LogTables.commit (t : LogTables) (src dst : Nat) : LogTables :=
  let x := t.seg src
  let d := t.seg dst
  let t := (t.setSeg dst { x with erases := d.erases, reads := 0, dead := d.dead, sick := false }).setSeg src (dirtySeg x)
  { t with reclaim := t.reclaim.map fun r => { r with stage := 2 } }

/-- A spare block of a plane is used or bad; `all` are the spare blocks that a plane starts with. -/
def LogTables.useSpare (t : LogTables) (all : List Nat) (plane block : Nat) : LogTables :=
  { t with spares := SMap.put t.spares plane (((SMap.find t.spares plane).getD all).erase block) }

/-- A block is retired: a spare takes its place, or its segment is retired whole. -/
def LogTables.retire (t : LogTables) (all : List Nat) (key spare : Nat) : LogTables :=
  let n := key / 4
  if spare = noSpare then
    let x := t.seg n
    let t := t.setSeg n { x with dead := true, state := if x.state ≤ 1 then 5 else x.state }
    if x.state ≤ 1 then t.endReclaim n else t
  else { t.useSpare all (planeKey n (key % 4)) spare with subst := SMap.put t.subst key spare }

/-- A created stream. -/
def streamNew (ring : Bool) : LogStream :=
  { ring := ring, start := 0, endOff := 0, next := 0, groups := [], unit := 0, left := 0 }

/-- What a journal record does to the tables (Table 11.6). -/
def LogTables.apply (all : List Nat) (t : LogTables) (r : JRec) : LogTables :=
  if r.type = 1 then t.alloc r
  else if r.type = 2 then t.setSeg r.a { t.seg r.a with state := 3, stamp := r.c }
  else if r.type = 3 then t.erase r.a r.b
  else if r.type = 4 then
    (if r.a = 0 then { t with streams := SMap.put t.streams r.stream (streamNew (r.b == 1)) }
     else match SMap.find t.streams r.stream with
      | some x => { t.dirty (x.groups.flatMap t.groupSegs) with streams := SMap.erase t.streams r.stream }
      | none => t)
  else if r.type = 5 then t.trim r.stream r.a
  else if r.type = 6 then
    { t.setSeg r.b { t.seg r.b with state := 2, gseq := 0, fill := [] } with
      reclaim := some { src := r.a, dst := r.b, cause := r.c, stage := 1, gseq := (t.seg r.a).gseq } }
  else if r.type = 7 then t.commit r.a r.b
  else if r.type = 8 then t.retire all r.a r.b
  else t

/-- The tables that a checkpoint holds. -/
def LogStore.tables (l : LogStore) : LogTables :=
  { segs := l.segs, streams := l.streams, subst := l.subst, spares := l.spares, learnt := l.learnt, reclaim := l.reclaim,
    gseq := l.gseq }

/-- The store with other tables. -/
def LogStore.withTables (l : LogStore) (t : LogTables) : LogStore :=
  { l with segs := t.segs, streams := t.streams, subst := t.subst, spares := t.spares, learnt := t.learnt,
           reclaim := t.reclaim, gseq := t.gseq }

/-! Tables while mounted. -/

def Block.ls (b : Block) : LogStore := b.fk.ls
def Block.mounted (b : Block) : Bool := b.rb LS_STATUS 31 && !b.underReset intakeUnit
def Block.lsSeg (b : Block) (n : Nat) : Segment := (SMap.find b.ls.segs n).getD (segNew n)

/-- Change what only a checkpoint makes durable. -/
def Block.touchSeg (b : Block) (n : Nat) (x : Segment) : Block := b.setLs fun l => { l with segs := SMap.put l.segs n x }

def Block.lsStream (b : Block) (s : Nat) : Option LogStream := SMap.find b.ls.streams s
def Block.setStream (b : Block) (s : Nat) (x : LogStream) : Block :=
  b.setLs fun l => { l with streams := SMap.put l.streams s x }

/-- A change of the tables: its record waits for a journal page (R311). -/
def Block.act (b : Block) (r : JRec) : Block :=
  let r := { r with seq := b.ls.jseq + 1 }
  (b.setLs fun l => { l.withTables (l.tables.apply b.flash.spareBlocks r) with
    unsaved := l.unsaved ++ [r], jseq := l.jseq + 1, journal := l.journal + 1 }).setFlash fun f => { f with clean := false }

/-- A record without stream, MEMBER and WIDTH. -/
def recOf (type a b c : Nat) : JRec := { type := type, stream := 0, a := a, b := b, member := 0, width := 0, c := c, seq := 0 }

/-- The stamp of a page (Table 11.2). -/
def Block.pageStamp (b : Block) : Nat := b.now / 2 ^ 30 % 2 ^ 32

/-- Records are on a programmed page (R311). -/
def Block.saveRecs (b : Block) (rs : List JRec) : Block :=
  b.setFlash fun f => { f with
    journal := f.journal ++ rs
    journalWords := f.journalWords ++ journalPage f.geom rs b.pageStamp f.store }

/-- Some record that `p` accepts is on no programmed page. -/
def Block.undurable (b : Block) (p : JRec → Bool) : Bool :=
  b.ls.unsaved.any p || b.ls.ops.any fun o => o.2.kind == 4 && o.2.recs.any p

/-- No journal page is being programmed. -/
def Block.journalIdle (b : Block) : Bool := !b.ls.ops.any fun o => o.2.kind == 4

/-- A record that is durable when the step that makes it is over, with every record before it (R322). -/
def Block.actNow (b : Block) (r : JRec) : Block :=
  let b := b.act r
  (b.saveRecs b.ls.unsaved).setLs fun l => { l with unsaved := [] }

def Block.groupSegs (b : Block) (g : Nat) : List Nat := b.ls.tables.groupSegs g

/-- The programmed pieces of a group: segment, unit, first offset, bytes. -/
def Block.groupPieces (b : Block) (g : Nat) : List (Nat × Nat × Nat × Nat) :=
  (b.groupSegs g).flatMap fun n => (b.lsSeg n).fill.map fun p => (n, p.1, p.2.1, p.2.2)

/-- The programmed pieces of a stream. -/
def Block.pieces (b : Block) (x : LogStream) : List (Nat × Nat × Nat × Nat) := x.groups.flatMap b.groupPieces

/-- The end of the run of pieces that holds the byte at `e`. -/
def runEnd (ps : List (Nat × Nat × Nat × Nat)) : Nat → Nat → Nat
  | 0, e => e
  | fuel + 1, e => match ps.find? fun p => p.2.2.1 ≤ e && e < p.2.2.1 + p.2.2.2 with
    | some p => runEnd ps fuel (p.2.2.1 + p.2.2.2)
    | none => e

/-- END after a program (R313). -/
def Block.advanceEnd (b : Block) (s : Nat) : Block :=
  match b.lsStream s with
  | none => b
  | some x =>
    let ps := b.pieces x
    b.setStream s { x with endOff := runEnd ps ps.length x.endOff }

/-! Targets. -/

/-- The channel and the bit of a target. -/
def tgChan (t : Nat) : Nat := t / 8
def tgBit (t : Nat) : Nat := t % 8

/-- A target is present, online and on a channel in service (R305). -/
def Block.online (b : Block) (t : Nat) : Bool :=
  t < 64 && b.rb (LS_CH (tgChan t)) (8 + tgBit t) && !b.rb (LS_CH (tgChan t)) (16 + tgBit t) &&
    !b.isOut (unitId 0x5 (40 + tgChan t))

/-- An online target of the formatted store. -/
def Block.serves (b : Block) (t : Nat) : Bool := b.online t && b.flash.targets.testBit t

/-- Spare blocks left in a plane. -/
def Block.sparesOf (b : Block) (key : Nat) : List Nat := (SMap.find b.ls.spares key).getD b.flash.spareBlocks
def Block.sparesLeft (b : Block) (key : Nat) : Nat := (b.sparesOf key).length

/-- A plane of the target has no spare left (R321). -/
def Block.spent (b : Block) (t : Nat) : Bool :=
  (List.range (gmLuns b.flash.geom)).any fun l => (List.range (gmPlanes b.flash.geom)).any fun p =>
    b.sparesLeft (t * 16 + l * 4 + p) == 0

/-- The segments of a target that a new member or a reclaim may take. -/
def Block.candidates (b : Block) (t : Nat) (states : List Nat) : List Nat :=
  let held := b.ls.forming.flatMap fun e => e.2
  ((List.range (gmLuns b.flash.geom)).flatMap fun l =>
    (List.range (gmBlocks b.flash.geom - b.flash.spareStart)).map fun k => segNo t l k).filter fun n =>
      states.contains (b.lsSeg n).state && !(b.lsSeg n).dead && !held.contains n

/-- Those with the lowest erase count (R319). (DESIGN CHOICE, log entry 50) -/
def Block.leastErased (b : Block) (ns : List Nat) : List Nat :=
  let es := ns.map fun n => (b.lsSeg n).erases
  match es with
  | [] => []
  | e :: es => ns.filter fun n => (b.lsSeg n).erases == es.foldl min e

/-- A target can take a new member. -/
def Block.canTake (b : Block) (t : Nat) : Bool := b.serves t && !b.spent t && !(b.candidates t [0, 1]).isEmpty

/-- LS_SEG_FREE: ERASED plus DIRTY segments; those that the journal and checkpoints take are not given (DESIGN CHOICE, log entry 45). -/
def Block.segFree (b : Block) : Nat :=
  let f := b.flash
  let used := SMap.count b.ls.segs fun n e => 1 < e.state && !isAnchorSeg n
  f.segTotal - 8 * f.targetCount - used - b.ls.sysUse

/-- LS_SEG_RESERVE as it acts (R315). -/
def Block.segReserve (b : Block) : Nat := max (b.rf LS_SEG_RESERVE 0 22) (2 * b.flash.stripe)

/-- RDONLY follows whether an online target can take a member (R321). -/
def Block.checkReadOnly (b : Block) : Block :=
  if (List.range 64).any fun t => b.serves t && !b.spent t then b
  else if b.rb LS_STATUS 30 then b else (b.wf LS_STATUS 30 1 1).causeStorage 1

/-! NAND operations (R31, R74). -/

/-- The channel of a target is under a reset. -/
def Block.chanHeld (b : Block) (t : Nat) : Bool := b.underReset (unitId 0x5 (40 + tgChan t))

/-- A program or an erase may start, or start again (R54, R74). -/
def Block.mayProgram (b : Block) : Bool := b.live && b.pins.pfailN

/-- A program or an erase may start on a target (R31, R74). -/
def Block.nandRoom (b : Block) (t : Nat) : Bool :=
  b.mayProgram && b.online t && !b.chanHeld t && SMap.count b.ls.ops (fun _ o => o.target == t) < 8

/-- DEDUCED, log entry 51. -/
def Block.startOp (b : Block) (o : NandOp) : Block :=
  b.setLs fun l => { l with ops := SMap.put l.ops l.nextOp o, nextOp := l.nextOp + 1 }

/-- DEDUCED, log entry 51. -/
def Block.endOp (b : Block) (n : Nat) : Block := b.setLs fun l => { l with ops := SMap.erase l.ops n }

/-- An operation on a target. -/
def nandOpNew (kind target : Nat) : NandOp :=
  { kind := kind, target := target, segment := 0, unit := 0, stream := 0, first := 0, bytes := [], keep := 0, tries := 0, bus := 0,
    recs := [], cmd := 0 }

/-- A journal page with records is sent to a target; which one is not given. (DESIGN CHOICE, log entry 92) -/
def Block.programRecs (b : Block) (rs : List JRec) : Option Block :=
  (b.pick ((List.range 64).filter b.nandRoom)).map fun t => b.used.startOp { nandOpNew 4 t with recs := rs }

/-- The records that wait are needed: a page is programmed at once (R311). -/
def Block.sync (b : Block) : Block :=
  let n := pageRecords b.flash.geom
  if b.ls.unsaved = [] then b
  else match b.programRecs (b.ls.unsaved.take n) with
    | some b => b.setLs fun l => { l with unsaved := l.unsaved.drop n }
    | none => b

/-- A LOGRD in progress: START and END as taken at its acceptance, the first damaged offset in TA, the codewords read
again, whether bytes are corrupt and whether they are missing, the segments that it reads, and the pieces that are still
to be read (segment, unit, first offset, bytes). -/
structure ReadRun where
  start : Nat
  endOff : Nat
  damage : Nat
  retried : Nat
  corrupt : Bool
  lost : Bool
  taken : List Nat
  pieces : List (Nat × Nat × Nat × Nat)
  deriving DecidableEq, Repr

/-- Pieces as numbers of the scratch of a command, and back. -/
def packPieces (ps : List (Nat × Nat × Nat × Nat)) : List Nat := ps.flatMap fun p => [p.1, p.2.1, p.2.2.1, p.2.2.2]

def unpackPieces : List Nat → List (Nat × Nat × Nat × Nat)
  | a :: x :: c :: d :: rest => (a, x, c, d) :: unpackPieces rest
  | _ => []

/-- A LOGRD in progress as its scratch, and back. -/
def ReadRun.pack (r : ReadRun) : List Nat :=
  [r.start, r.endOff, r.damage, r.retried, b2n r.corrupt, b2n r.lost, r.taken.length] ++ r.taken ++ packPieces r.pieces

def readRun (c : Cmd) : Option ReadRun :=
  match c.scratch with
  | s :: e :: d :: r :: k :: l :: n :: rest =>
    some { start := s, endOff := e, damage := d, retried := r, corrupt := k == 1, lost := l == 1, taken := rest.take n,
           pieces := unpackPieces (rest.drop n) }
  | _ => none

/-- A LOGRD that has not ended reads from a segment (R314). -/
def Block.beingRead (b : Block) (n : Nat) : Bool :=
  b.fk.cmds.any fun e => e.2.op == .logrd && (match readRun e.2 with
    | some r => r.taken.contains n
    | none => false)

/-- A program or an erase of a segment is in progress. -/
def Block.segBusy (b : Block) (n : Nat) : Bool :=
  b.ls.ops.any fun e => (e.2.kind == 1 || e.2.kind == 2) && e.2.segment == n

/-- Begin the erase of a segment, where one may start: no LOGRD reads it (R314), nothing else is done to it, and the record
that took its data out of service is durable. -/
def Block.startErase (b : Block) (n : Nat) : Block :=
  b.guard (b.nandRoom (segTarget n) && !b.beingRead n && !b.segBusy n && !b.undurable fun r => r.type == 4 || r.type == 5)
    fun b =>
    b.startOp { nandOpNew 2 (segTarget n) with segment := n }

/-- Groups (R319): the targets in round-robin order after the one used last. -/
def Block.roundRobin (b : Block) : List Nat := (List.range 64).map fun i => (b.ls.lastTarget + 1 + i) % 64

/-- One member from each of the targets; which of equal ones is not defined. (DESIGN CHOICE, log entry 50) -/
def Block.chooseMembers (b : Block) : List Nat → Block × List Nat
  | [] => (b, [])
  | t :: ts => match b.pick (b.leastErased (b.candidates t [0, 1])) with
    | none => b.chooseMembers ts
    | some n => let r := b.used.chooseMembers ts; (r.1, n :: r.2)

/-- Units and programs of segments that have left their group carry nothing for their stream any more. -/
def Block.voidUnits (b : Block) (ns : List Nat) : Block :=
  b.setLs fun l =>
    { l with units := l.units.filter fun u => !ns.contains u.segment
             ops := SMap.mapVals l.ops fun _ o => if o.kind = 1 ∧ ns.contains o.segment then { o with keep := 0 } else o }

/-- START of a stream moves through a TRIM record (R315, R325). -/
def Block.trimTo (b : Block) (s start : Nat) : Block :=
  match b.lsStream s with
  | none => b
  | some x =>
    let t := b.ls.tables
    let gone := (t.below start (t.held x.groups)).flatMap b.groupSegs
    ((b.voidUnits gone).act { recOf 5 start 0 0 with stream := s }).sync

/-- Drop the oldest group of a stream: START moves to its end (R315). -/
def Block.dropGroup (b : Block) (s : Nat) (x : LogStream) : Block :=
  match x.groups with
  | _ :: h :: _ => match (b.groupSegs h).head? with
    | some n => b.trimTo s (b.lsSeg n).goff
    | none => b
  | _ => b

/-- Form a group of segments that are erased, each by an ALLOC record (R309, R319). -/
def Block.formGroup (b : Block) (s : Nat) (x : LogStream) (ns : List Nat) : Block :=
  let g := b.ls.gseq + 1
  let b := b.each ns.zipIdx fun b p =>
    b.act { type := 1, stream := s, a := p.1, b := g, member := p.2, width := ns.length, c := x.next, seq := 0 }
  let b := b.setLs fun l =>
    { l with
      streams := SMap.modify l.streams s fun x => { x with unit := 0, left := gmPages b.flash.geom * ns.length }
      forming := SMap.erase l.forming s
      lastTarget := match ns.getLast? with
        | some n => segTarget n
        | none => l.lastTarget }
  b.sync

/-- What a LOGWR that needs a group meets (R315). -/
inductive Room where
  | ready
  | wait
  | stop (st : Nat)
  deriving DecidableEq, Repr

/-- One try at a new group for a stream: which segments the journal takes meanwhile is not given. -/
def Block.needGroup (b : Block) (s : Nat) : Block × Room :=
  match b.lsStream s with
  | none => (b, .stop stMalformed)
  | some x => match SMap.find b.ls.forming s with
    | some ns =>
      if ns.all fun n => (b.lsSeg n).state == 1 then (b.formGroup s x ns, .ready)
      else (b.each (ns.filter fun n => (b.lsSeg n).state == 0) Block.startErase, .wait)
    | none =>
      let ts := (b.roundRobin.filter b.canTake).take b.flash.stripe
      if !(List.range 64).any fun t => b.serves t && !b.spent t then (b.checkReadOnly, .stop stLasting)
      else if ts.isEmpty || b.segFree < ts.length + b.segReserve then
        if x.ring && 1 < x.groups.length then (b.dropGroup s x, .ready)
        else if b.ls.reclaim.isSome then (b, .wait)
        else (b, .stop stBoomEmpty)
      else
        let r := b.chooseMembers ts
        let b := (r.1.setLs fun l => { l with forming := SMap.put l.forming s r.2, sysUse := r.1.fresh }).used
        (b, .ready)

/-! Wear and retirement (R319 to R321). -/

/-- A segment is due for a reclaim; once is enough. -/
def Block.reclaimDue (b : Block) (n cause : Nat) : Block :=
  b.guard (!b.ls.due.any fun p => p.1 == n) fun b => b.setLs fun l => { l with due := l.due ++ [(n, cause)] }

/-- EC_MAX and EC_MIN over the segments in service (Table 11.11). -/
def Block.eraseRange (b : Block) : Nat × Nat :=
  let es := (b.ls.segs.filter fun e => e.2.state ≠ 5).map fun e => e.2.erases
  let plain := es.length + (b.ls.segs.filter fun e => e.2.state == 5).length < b.flash.segTotal
  let lo := match es with
    | [] => 0
    | e :: es => es.foldl min e
  (es.foldl max 0, if plain then 0 else lo)

/-- Wear levelling: the SEALED segment with the lowest erase count is due (R319); one such reclaim at a time. -/
def Block.wearCheck (b : Block) : Block :=
  let r := b.eraseRange
  let sealedSegs := (b.ls.segs.filter fun e => e.2.state == 3).map (·.1)
  let busy := b.ls.due.any (fun p => p.2 == 2) || (match b.ls.reclaim with
    | some x => x.cause == 2
    | none => false)
  if b.rf LS_WL_CFG 0 16 ≠ 0 && b.rf LS_WL_CFG 0 16 < r.1 - r.2 && !busy then
    match b.pick (b.leastErased sealedSegs) with
    | some n => b.used.reclaimDue n 2
    | none => b
  else b

/-- A block is retired (R321) by a RETIRE record: a spare of its plane takes its place, or its segment is retired whole,
which R33 reports as a spare brought in or as a kind of spare spent. -/
def Block.retire (b : Block) (key : Nat) : Block :=
  let n := key / 4
  let spare := (b.sparesOf (planeKey n (key % 4))).head?
  let b := b.act (recOf 8 key (spare.getD noSpare) 0)
  let b := (b.setLs fun l => { l with blockFails := SMap.erase l.blockFails key }).setFlash fun f => { f with retired := f.retired + 1 }
  let b := ((b.wf LS_ERR_WR 0 16 (min b.flash.retired 0xFFFF)).causeStorage 2).causeFault (if spare.isNone then 3 else 2)
  let x := b.lsSeg n
  ((if 1 < x.state && x.state < 4 then b.reclaimDue n 3 else b).checkReadOnly).sync

/-- A program or an erase of a segment failed; which plane's block failed is not stated. The second failure of a block
retires it (R321). -/
def Block.blockFailed (b : Block) (n : Nat) : Block × Bool :=
  let key := blockKey n (b.fresh % gmPlanes b.flash.geom)
  let k := SMap.get zeroNat b.ls.blockFails key + 1
  let b := b.used.setLs fun l => { l with blockFails := SMap.set zeroNat l.blockFails key k }
  if 2 ≤ k then (b.retire key, true) else (b, false)

/-- A target is taken offline (R305, R318). -/
def Block.goOffline (b : Block) (t why : Nat) : Block :=
  (((b.wf (LS_CH (tgChan t)) (16 + tgBit t) 1 1).wf (LS_CH (tgChan t)) 0 4 why).causeStorage 4).checkReadOnly

/-! Checkpoints and anchors (R310, R311). -/

/-- The place of a target's next anchor: the next page of its block, or the first of the other block once that is full. -/
def nextAnchor (pages : Nat) : Option Anchor → Nat × Nat
  | none => (0, 0)
  | some a => if a.page + 1 < pages then (a.block, a.page + 1) else (1 - a.block, 0)

/-- An anchor is written to every online target of the store. Which segments hold the checkpoint and the journal is not
given. (DESIGN CHOICE, log entry 45) -/
def Block.writeAnchors (b : Block) (clean : Bool) : Block :=
  let f := b.flash
  let seq := (f.anchors.map fun e => e.2.seq).foldl max 0 + 1
  let place := b.fresh
  let a := fun (t : Nat) =>
    let p := nextAnchor (gmPages f.geom) (SMap.find f.anchors t)
    ({ clean := clean, storeId := f.storeId, seq := seq, geom := f.geom, sparePct := f.sparePct, stripe := f.stripe,
       targets := f.targets, ckptSeg := place % 2 ^ 22, ckptSeq := f.ckptSeq, jrnSeg := place / 2 ^ 22 % 2 ^ 22,
       block := p.1, page := p.2 } : Anchor)
  b.used.each ((List.range 64).filter b.serves) fun b t => b.setFlash fun f =>
    { f with anchors := SMap.put f.anchors t (a t), anchorWords := SMap.put f.anchorWords t (anchorWord (a t) b.pageStamp) }

/-- Every block of the store, in segment order. -/
def Flash.allBlocks (f : Flash) : List Nat :=
  f.allSegs.flatMap fun n => (List.range (gmPlanes f.geom)).map fun p => blockKey n p

/-- Tables are written as a checkpoint with its anchors. -/
def Block.saveTables (b : Block) (t : LogTables) (clean : Bool) : Block :=
  (b.setFlash fun f =>
    { f with ckpt := t, ckptSeq := f.ckptSeq + 1, clean := clean, journal := [], journalWords := []
             ckptWords := checkpointWords (checkpointData t f.allSegs f.allBlocks segNew (f.ckptSeq + 1) (b.ls.jseq + 1))
               b.pageStamp f.store }).writeAnchors clean

/-- A checkpoint (R311): every record so far is durable. How many segments it takes, and which is its first, is not given; a
record of TYPE 9 tells of it in the journal that follows. (DESIGN CHOICE, log entry 92) (DESIGN CHOICE, log entry 45) -/
def Block.checkpoint (b : Block) (clean : Bool) : Block :=
  let n := b.fresh
  let b := b.used.saveTables b.ls.tables clean
  let b := b.setLs fun l => { l with
    journal := 0, sysUse := n, unsaved := [], ops := SMap.mapVals l.ops fun _ o => if o.kind = 4 then { o with recs := [] } else o }
  if clean then b else b.used.act (recOf 9 b.flash.ckptSeq (b.fresh % 2 ^ 22) 0)

end Sys2Proof.Machine
end

