-- ==== Sys2Proof/Machine/LogStore.lean ====
section
/-! DEFINITION. The log store at work (11.3 to 11.6): LOGWR and LOGRD, NAND operations, refresh and reclaim. -/

namespace Sys2Proof.Machine

/-! Working memory (R324). -/

/-- A line lies in the working region: LS_MEM_SIZE MiB from LS_MEM_BASE. -/
def Block.inLogRegion (b : Block) (line : Nat) : Bool :=
  b.pair LS_MEM_BASE_LO ≤ 64 * line && 64 * line + 64 ≤ b.pair LS_MEM_BASE_LO + b.rf LS_MEM_SIZE 0 16 * 2 ^ 20

/-- An access to the working region has failed for good (R63): the operation that the store is at ends with the status.
(DEDUCED, log entry 14) -/
def Block.logFails (b : Block) (st : Nat) : Block := b.setLs fun s => { s with memFail := some st }

/-- The next operation that the store is at takes the failure; otherwise it goes on. (DEDUCED, log entry 52)
(DEDUCED, log entry 14) -/
def Block.unlessFailed (b : Block) (stop : Block → Nat → Block) (go : Block → Block) : Block :=
  match b.ls.memFail with
  | some st => stop (b.setLs fun l => { l with memFail := none }) st
  | none => go b

/-! Parameter blocks (Table 11.7). -/

def lgStream (pb : BitVec 512) : Nat := bits pb 0 5
def lgFlush (pb : BitVec 512) : Bool := bit pb 8
def lgOff (pb : BitVec 512) : Nat := pbW pb 1 + 2 ^ 32 * (pbW pb 2 % 2 ^ 24)

/-- The reserved fields of the parameter block are 0. -/
def lgFields (c : Cmd) : Bool :=
  if c.op = .logwr then bits c.pb 5 3 == 0 && bits c.pb 9 23 == 0 && pbRest c.pb 1
  else bits c.pb 5 27 == 0 && pbW c.pb 2 / 2 ^ 24 == 0 && pbRest c.pb 3

/-- BOUND and CTX of a stream. -/
def Block.lsBound (b : Block) (s : Nat) : Word := BitVec.ofNat 32 (SMap.get zeroNat b.ls.bound s)

/-- The stream is bound to the context of the command's job (R312). -/
def Block.lsBinds (b : Block) (c : Cmd) : Bool :=
  let w := b.lsBound (lgStream c.pb)
  bit w 30 && b.ctxOfCmd c == some (bits w 24 6)

/-- R156 check 4 and the binding for LOGWR and LOGRD (R312). (DEDUCED, log entry 52) -/
def Block.acceptLog (b : Block) (c : Cmd) : Option Nat :=
  if !(byteString c.ta && dSize c.ta 0 ≤ 4194304 && lgFields c && b.mounted && (b.lsStream (lgStream c.pb)).isSome) then
    some stMalformed
  else if !b.lsBinds c then some stProtect
  else none

/-! LOGWR (R313). `scratch` holds the offset of TA byte 0 and the bytes appended so far. -/

/-- How far a LOGWR has come: its offset and its bytes appended. -/
def logRun (c : Cmd) : Nat × Nat := (c.scratch.headD 0, c.scratch.getD 1 0)

/-- A LOGWR ends (Table 11.7). -/
def Block.logEnd (b : Block) (id : Nat) (c : Cmd) (st : Nat) : Block := b.endWith id c st (logRun c).1

/-- The LOGWRs of one stream take effect one at a time, in acceptance order. -/
def Block.logFirst (b : Block) (id : Nat) (c : Cmd) : Bool :=
  b.fk.cmds.all fun e => e.2.op ≠ .logwr || e.1 == id || lgStream e.2.pb ≠ lgStream c.pb || e.2.phase ≠ .accepted ||
    c.order ≤ e.2.order || 1 < e.2.scratch.length && e.2.scratch.getD 1 0 == dSize e.2.ta 0

/-- The LOGWRs of a stream that have begun. -/
def Block.logwrs (b : Block) (s : Nat) : List (Nat × Cmd) :=
  b.cmdsOf fun c => c.op == .logwr && c.phase == .accepted && c.scratch.length == 2 && lgStream c.pb == s

/-- The unit that a stream fills. -/
def Block.openUnit (b : Block) (s : Nat) : Option OpenUnit := b.ls.units.find? fun u => u.stream == s && !u.due

/-- The segment of a redone unit that has no place yet. -/
def unplaced : Nat := 2 ^ 22

/-- Change the unit that a stream fills. -/
def Block.modUnit (b : Block) (s : Nat) (f : OpenUnit → OpenUnit) : Block :=
  b.setLs fun l => { l with units := l.units.map fun u => if u.stream == s && !u.due then f u else u }

/-- The place of a group's next stripe unit: its segment and the unit within it (R309). -/
def Block.nextUnit (b : Block) (x : LogStream) : Option (Nat × Nat) :=
  match x.groups.getLast? with
  | none => none
  | some g =>
    let ns := b.groupSegs g
    if x.left = 0 ∨ ns = [] then none
    else (ns[x.unit % ns.length]?).map fun n => (n, x.unit / ns.length)

/-- A stream begins its next stripe unit. -/
def Block.beginUnit (b : Block) (s : Nat) (x : LogStream) (u : OpenUnit) : Block :=
  (b.setLs fun l => { l with units := l.units ++ [u] }).setStream s { x with unit := x.unit + 1, left := x.left - 1 }

/-- A redone unit of a stream takes its place. -/
def Block.placeUnit (b : Block) (s : Nat) (x : LogStream) (u : OpenUnit) (p : Nat × Nat) : Block :=
  (b.setLs fun l => { l with units := l.units.erase u }).beginUnit s x { u with segment := p.1, unit := p.2 }

/-- Bytes of TA. -/
def Block.taBytes (b : Block) (c : Cmd) (i n : Nat) : Option (List Byte) :=
  (List.range n).mapM fun k => (b.cmdLocal c (elemAddr c.ta [i + k, 0, 0, 0, 0, 0]) 1).map fun l => b.locGet l 0

/-- The LOGWR's next bytes are in a unit. -/
def Block.tookBytes (b : Block) (id : Nat) (c : Cmd) (s k : Nat) : Block :=
  (b.setLs fun l => { l with streams := SMap.modify l.streams s fun x => { x with next := x.next + k } }).setCmd id
    { c with scratch := [(logRun c).1, (logRun c).2 + k] }

/-- Append bytes until the LOGWR has none left, waits, or ends. -/
def Block.append (b : Block) (id : Nat) (s : Nat) : Nat → Block
  | 0 => b
  | fuel + 1 =>
    match b.findCmd id, b.lsStream s with
    | some c, some x =>
      let n := dSize c.ta 0
      let done := (logRun c).2
      let size := gmUnit b.flash.geom
      let due := fun (held k : Nat) => held + k == size || (lgFlush c.pb && done + k == n)
      if c.phase ≠ .accepted ∨ n ≤ done then b
      else match b.openUnit s with
        | some u =>
          let k := min (size - u.bytes.length) (n - done)
          match b.taBytes c done k with
          | none => b.logEnd id c stProtect
          | some xs =>
            let b := b.modUnit s fun u => { u with bytes := u.bytes ++ xs, due := due u.bytes.length k }
            (b.tookBytes id c s k).append id s fuel
        | none => match b.nextUnit x with
          | some p => match b.ls.units.find? fun u => u.stream == s && u.segment == unplaced with
            | some u => (b.placeUnit s x u p).append id s fuel
            | none =>
              let k := min size (n - done)
              match b.taBytes c done k with
              | none => b.logEnd id c stProtect
              | some xs =>
                let b := b.beginUnit s x
                  { stream := s, segment := p.1, unit := p.2, first := x.next, bytes := xs, due := due 0 k, redo := false }
                (b.tookBytes id c s k).append id s fuel
          | none =>
            let r := b.needGroup s
            match r.2 with
            | .ready => r.1.append id s fuel
            | .wait => r.1
            | .stop st => match r.1.findCmd id with
              | some c => r.1.logEnd id c st
              | none => r.1
    | _, _ => b

/-- A record that is needed for durability: ALLOC, STREAM or TRIM. -/
def JRec.needed (r : JRec) : Bool := r.type == 1 || r.type == 4 || r.type == 5

/-- The bytes of a LOGWR from START on are all on programmed pages, and the ALLOC records of the stream are durable. -/
def Block.onFlash (b : Block) (s off n : Nat) : Bool :=
  match b.lsStream s with
  | none => false
  | some x =>
    let ps := b.pieces x
    off + n ≤ runEnd ps ps.length (max off x.start) && !b.undurable fun r => r.type == 1 && r.stream == s

/-- Records that are needed go to flash, and LOGWRs whose bytes are all there end DONE (R313). -/
def Block.logSignal (b : Block) : Block :=
  let b := b.guard (b.ls.unsaved.any JRec.needed) Block.sync
  b.each (b.cmdsOf fun c => c.op == .logwr && c.phase == .accepted && c.scratch.length == 2) fun b e =>
    let r := logRun e.2
    b.guard (r.2 == dSize e.2.ta 0 && b.onFlash (lgStream e.2.pb) r.1 r.2) fun b => b.logEnd e.1 e.2 stDone

/-- The work of a LOGWR: its turn, its offset, its bytes. A TA of 4 MiB fills at most 256 units. -/
def Block.logwr (b : Block) (id : Nat) (c : Cmd) : Block :=
  if !b.mounted then b.logEnd id c stMalformed
  else if b.rb LS_STATUS 30 && c.scratch = [] then b.logEnd id c stLasting
  else if !b.logFirst id c then b
  else match b.lsStream (lgStream c.pb) with
    | none => b.logEnd id c stMalformed
    | some x =>
      let b := if c.scratch = [] then b.setCmd id { c with scratch := [x.next, 0] } else b
      (b.append id (lgStream c.pb) 1024).logSignal

/-- LOGWR (R313, R315). -/
def execLogwr (t : TStep) (s : State) : Host.Outcome State Fault Refusal :=
  s.upd (tensorRow specLogwr (some 0) (fun id b => b.workOn id (fun c => c.op == .logwr) fun c b =>
    b.unlessFailed (fun b st => b.logEnd id c st) fun b => b.logwr id c) t)

/-- A unit of a stream is due for programming. -/
def Block.flushUnit (b : Block) (s : Nat) : Block := b.modUnit s fun u => { u with due := true }

/-- LS_FLUSH_TIMEOUT (R313). -/
def execLsFlushTimeout (n : Nat) (s : State) : Host.Outcome State Fault Refusal :=
  s.upd fun b => b.whenLive fun b => b.guard (b.mounted && b.rf LS_FLUSH 0 16 ≠ 0) (·.flushUnit n)

/-! Bytes that a stream loses (R316, R321). -/

/-- A unit without its bytes from a stream offset on; one that is left without bytes is padding. -/
def OpenUnit.clip (e : Nat) (u : OpenUnit) : OpenUnit :=
  let xs := u.bytes.take (e - u.first)
  { u with bytes := xs, due := u.due || xs.isEmpty }

/-- A piece without its bytes from a stream offset on. -/
def clipFill (e : Nat) (ps : List (Nat × Nat × Nat)) : List (Nat × Nat × Nat) :=
  (ps.map fun p => (p.1, p.2.1, min p.2.2 (e - p.2.1))).filter fun p => 0 < p.2.2

/-- A stream loses its bytes from an offset on that are not part of it (R316). A LOGWR that had begun at or after it begins
again. (DEDUCED, log entry 52) -/
def Block.truncate (b : Block) (s e : Nat) : Block :=
  match b.lsStream s with
  | none => b
  | some x =>
    let b := b.each (x.groups.flatMap b.groupSegs) fun b n =>
      b.touchSeg n { b.lsSeg n with fill := clipFill e (b.lsSeg n).fill }
    let b := b.setLs fun l =>
      { l with units := (l.units.map fun u => if u.stream = s then u.clip e else u).filter fun u =>
                 !(u.segment == unplaced && u.bytes.isEmpty)
               ops := SMap.mapVals l.ops fun _ o =>
                 if o.kind = 1 ∧ o.stream = s then { o with keep := min o.keep (e - o.first) } else o
               streams := SMap.put l.streams s { x with next := e } }
    b.each ((b.logwrs s).filter fun c => e ≤ (logRun c.2).1) fun b c => b.setCmd c.1 { c.2 with scratch := [] }

/-- A LOGWR that has appended these bytes ends through teardown or reset: those that are not durable are lost, and the next
LOGWR starts there (R316). -/
def Block.cutStream (b : Block) (s off n : Nat) : Block :=
  match b.lsStream s with
  | none => b
  | some x => b.guard (max off x.endOff < off + n) (·.truncate s (max off x.endOff))

/-- Bytes of a stream cannot be programmed: the LOGWRs that hold them end with HW_LASTING. (DEDUCED, log entry 51) -/
def Block.loseBytes (b : Block) (s first n : Nat) : Block :=
  let b := b.each ((b.logwrs s).filter fun c => overlaps (logRun c.2).1 (logRun c.2).2 first n) fun b c =>
    b.logEnd c.1 c.2 stLasting
  b.truncate s first

/-! Programs. -/

/-- A due unit without a place takes the stream's next one, or what a LOGWR that needs a group meets (R315, R321). -/
def Block.placeNext (b : Block) (u : OpenUnit) : Block :=
  match b.lsStream u.stream with
  | none => b.setLs fun l => { l with units := l.units.erase u }
  | some x => match b.nextUnit x with
    | some p => b.placeUnit u.stream x u p
    | none =>
      let r := b.needGroup u.stream
      match r.2 with
      | .stop _ => (r.1.setLs fun l => { l with units := l.units.erase u }).loseBytes u.stream u.first u.bytes.length
      | _ => r.1

/-- The oldest due unit of a stream is sent to its target (R313, R74); one whose target is offline goes to the stream's next
place. -/
def Block.programUnit (b : Block) (s : Nat) : Block :=
  match b.ls.units.find? fun u => u.stream == s && u.due with
  | none => b
  | some u =>
    if u.segment = unplaced then b.placeNext u
    else if !b.online (segTarget u.segment) then
      b.setLs fun l => { l with units := l.units.erase u ++ (if u.bytes = [] then [] else [{ u with segment := unplaced }]) }
    else b.guard (b.rb LS_STATUS 27 && b.nandRoom (segTarget u.segment)) fun b =>
      (b.setLs fun l => { l with units := l.units.erase u }).startOp
        { nandOpNew 1 (segTarget u.segment) with segment := u.segment, unit := u.unit, stream := s, first := u.first,
                                                 bytes := u.bytes, keep := u.bytes.length, tries := b2n u.redo }

/-- STRIPE_UNIT_PROGRAM (R313). -/
def execStripeUnitProgram (n : Nat) (s : State) : Host.Outcome State Fault Refusal :=
  s.upd fun b => b.whenLive fun b => b.guard b.mounted fun b => (b.programUnit n).logSignal

/-- NAND operations also complete while the block waits for them on its way into reset (Table 2.7). -/
def Block.nandRuns (b : Block) : Bool := b.pins.vddAo && b.pins.vddFk && (b.live || b.ao.phase == .entering)

/-- A segment is sealed with its last unit, by a record (Table 11.6); a refresh that was asked for is due then. -/
def Block.sealLast (b : Block) (o : NandOp) : Block :=
  b.guard (o.unit + 1 == gmPages b.flash.geom) fun b =>
    let x := b.lsSeg o.segment
    let e := (x.fill.map fun p => p.2.1 + p.2.2).foldl max x.goff
    (b.act { recOf 2 o.segment e x.stamp with stream := o.stream }).guard x.sick fun b => b.reclaimDue o.segment 1

/-- A stripe unit is on flash. A segment that has left its group meanwhile holds nothing for its stream. The bytes that a
program moves over the bus depend on the device's page. -/
def Block.programmed (b : Block) (o : NandOp) : Block :=
  let b := (b.tally 0x06 (tgChan o.target) none b.fresh).used
  let x := b.lsSeg o.segment
  b.guard (x.state == 2) fun b =>
    let info : WordInfo :=
      { kind := 1, stream := o.stream, valid := 0, gseq := x.gseq, off := o.first, stamp := b.pageStamp, store := b.flash.store }
    let b := b.setFlash fun f =>
      { f with pages := putPages f.pages o.segment o.unit 0 (unitPages f.geom info o.bytes), clean := false }
    let b := b.touchSeg o.segment
      { x with stamp := b.pageStamp, reads := 0, fill := x.fill ++ (if o.keep = 0 then [] else [(o.unit, o.first, o.keep)]) }
    ((b.sealLast o).advanceEnd o.stream).logSignal

/-- A program has failed: it is redone once at the stream's next stripe unit (R321). (DEDUCED, log entry 51) -/
def Block.redoProgram (b : Block) (o : NandOp) : Block :=
  let b := b.guard ((b.lsSeg o.segment).state == 2) (·.sealLast o)
  if o.keep = 0 then b
  else if o.tries = 0 then
    b.placeNext { stream := o.stream, segment := unplaced, unit := 0, first := o.first, bytes := o.bytes.take o.keep, due := true,
                  redo := true }
  else b.loseBytes o.stream o.first o.keep

/-- The records of a journal page that is not programmed wait again, and go to another page where one may be programmed. -/
def Block.recsAgain (b : Block) (rs : List JRec) : Block :=
  (b.setLs fun l => { l with unsaved := rs ++ l.unsaved }).logSignal

/-- NAND_PROGRAM_DONE (R313, R321). (DEDUCED, log entry 51) -/
def Block.programDone (b : Block) (n : Nat) (ok : Bool) : Block :=
  match SMap.find b.ls.ops n with
  | none => b
  | some o =>
    let b := if (o.kind = 1 ∨ o.kind = 4) ∧ !ok then b.satAdd LS_ERR_WR 24 8 1 else b
    if o.kind = 1 then
      let b := b.endOp n
      if ok then b.programmed o else ((b.blockFailed o.segment).1.redoProgram o).logSignal
    else if o.kind = 4 then
      let b := b.endOp n
      if ok then (b.saveRecs o.recs).logSignal else b.recsAgain o.recs
    else b

/-- NAND_PROGRAM_DONE (R313, R321). -/
def execNandProgramDone (op : Nat) (ok : Bool) (s : State) : Host.Outcome State Fault Refusal :=
  s.upd fun b => b.guard b.nandRuns (·.programDone op ok)

/-! Erases. -/

/-- LS_STATUS follows the end of a reclaim (R322). -/
def Block.showReclaim (b : Block) : Block :=
  if b.ls.reclaim.isSome then b else (b.wf LS_STATUS 26 1 0).wf LS_STATUS 23 3 0

/-- A segment has been erased; its ERASED record is journalled lazily (R319). -/
def Block.erased (b : Block) (n : Nat) : Block :=
  let b := b.setFlash fun f => { f with pages := erasePages f.pages n }
  ((b.act (recOf 3 n ((b.lsSeg n).erases + 1) 0)).showReclaim).wearCheck

/-- A segment is not waited for by a group any more. -/
def Block.unform (b : Block) (n : Nat) : Block := b.setLs fun l => { l with forming := SMap.keep l.forming fun _ ns => !ns.contains n }

/-- NAND_ERASE_DONE (R319, R321): a failed erase is retried once, where an erase may start again (R54, R74); a second
failure of a block retires it, and an erase with its spare follows. (DEDUCED, log entry 51) -/
def Block.eraseDone (b : Block) (n : Nat) (ok : Bool) : Block :=
  match SMap.find b.ls.ops n with
  | none => b
  | some o =>
    b.guard (o.kind == 2) fun b =>
      if ok then (b.endOp n).erased o.segment
      else
        let r := (b.satAdd LS_ERR_WR 16 8 1).blockFailed o.segment
        let again := fun (k : Nat) => r.1.setLs fun l => { l with ops := SMap.modify l.ops n fun o => { o with tries := k } }
        if (r.1.lsSeg o.segment).dead then ((r.1.endOp n).unform o.segment).showReclaim
        else if !r.1.mayProgram then r.1.endOp n
        else if r.2 then again 0
        else if o.tries = 0 then again 1
        else r.1.endOp n

/-- NAND_ERASE_DONE (R319, R321). -/
def execNandEraseDone (op : Nat) (ok : Bool) (s : State) : Host.Outcome State Fault Refusal :=
  s.upd fun b => b.guard b.nandRuns (·.eraseDone op ok)

/-! LOGRD (R314, R317, R318). -/

/-- The parts of programmed pieces that lie in [lo, hi), in offset order. -/
def clipPieces (ps : List (Nat × Nat × Nat × Nat)) (lo hi : Nat) : List (Nat × Nat × Nat × Nat) :=
  (ps.filter fun p => overlaps p.2.2.1 p.2.2.2 lo (hi - lo)).mergeSort fun x y => x.2.2.1 ≤ y.2.2.1

/-- The result word of a LOGRD above STATUS: DAMAGE, SHORT and RETRIED (Table 11.7). -/
def readWord (c : Cmd) (r : ReadRun) : Nat :=
  let off := lgOff c.pb
  r.damage * 2 ^ 24 + b2n (off < r.start || r.endOff < off + dSize c.ta 0) * 2 ^ 8 + min r.retried 255

/-- The result word of a LOGRD that has found nothing yet. -/
def readNone : Nat := 0xFFFFFFFF * 2 ^ 24

/-- The result word of a LOGRD as far as it has come. -/
def readSoFar (c : Cmd) : Nat := ((readRun c).map (readWord c)).getD readNone

/-- A LOGRD ends when nothing is left to read (Table 11.7): HW_LASTING goes before VOID_CORRUPT. -/
def Block.readEnd (b : Block) (id : Nat) (c : Cmd) (r : ReadRun) : Block :=
  b.endWith id c (if r.lost then stLasting else if r.corrupt then stCorrupt else stDone) (readWord c r)

/-- TA's bytes at `i` on take `xs`; the LOGRD ends with PROTECT_FAULT where it may not write one. -/
def Block.readPut (b : Block) (id : Nat) (c : Cmd) (i : Nat) (xs : List Byte) (k : Block → Cmd → Block) : Block :=
  match b.putString c i xs with
  | .ok (b, c) => k b c
  | .error st => b.endWith id c st (readSoFar c)

/-- FILL for a number of bytes. -/
def fillBytes (c : Cmd) (n : Nat) : List Byte := List.replicate n (BitVec.ofNat 8 (fillElem c.ta))

/-- The part of a piece that a LOGRD reads: from and up to these stream offsets. -/
def ReadRun.part (r : ReadRun) (c : Cmd) (p : Nat × Nat × Nat × Nat) : Nat × Nat :=
  let off := lgOff c.pb
  (max p.2.2.1 (max off r.start), min (p.2.2.1 + p.2.2.2) (min (off + dSize c.ta 0) r.endOff))

/-- Pieces of offline targets take FILL and set DAMAGE (R318), until one on an online target is next. -/
def Block.skipOffline (b : Block) (id : Nat) : Nat → Block
  | 0 => b
  | fuel + 1 =>
    match b.findCmd id with
    | none => b
    | some c => match readRun c with
      | none => b
      | some r => match r.pieces with
        | [] => b.guard (c.phase == .accepted) (·.readEnd id c r)
        | p :: ps =>
          if b.online (segTarget p.1) then b
          else
            let off := lgOff c.pb
            let q := r.part c p
            b.readPut id c (q.1 - off) (fillBytes c (q.2 - q.1)) fun b c =>
              let r := { r with pieces := ps, lost := true, damage := min r.damage (q.1 - off) }
              (b.setCmd id { c with scratch := r.pack }).skipOffline id fuel

/-- The next piece of a LOGRD is read: an operation on its target. -/
def Block.readNext (b : Block) (id : Nat) : Block :=
  match (b.findCmd id).bind readRun with
  | some r => match r.pieces with
    | p :: _ => b.guard (!b.ls.ops.any (fun o => o.2.kind == 3 && o.2.cmd == id) && !b.chanHeld (segTarget p.1) &&
          SMap.count b.ls.ops (fun _ o => o.target == segTarget p.1) < 8) fun b =>
        b.startOp { nandOpNew 3 (segTarget p.1) with segment := p.1, unit := p.2.1, first := p.2.2.1, cmd := id }
    | [] => b
  | none => b

/-- What a LOGRD is to read: [START, END) and the pieces in it, as they stand at its acceptance (R314).
(DEDUCED, log entry 52) -/
def Block.readTaken (b : Block) (c : Cmd) : Option ReadRun :=
  (b.lsStream (lgStream c.pb)).map fun x =>
    let off := lgOff c.pb
    let lo := max off x.start
    let hi := min (off + dSize c.ta 0) x.endOff
    let ps := if lo < hi then clipPieces (b.pieces x) lo hi else []
    { start := x.start, endOff := x.endOff, damage := 0xFFFFFFFF, retried := 0, corrupt := false, lost := false,
      taken := (ps.map (·.1)).eraseDups, pieces := ps }

/-- A LOGRD begins: the bytes of TA take FILL, those in [START, END) until they have been read (R314). -/
def Block.readBegin (b : Block) (id : Nat) (c : Cmd) : Block :=
  b.readPut id c 0 (fillBytes c (dSize c.ta 0)) fun b c => b.setCmd id c

/-- The work of a LOGRD. -/
def Block.logrd (b : Block) (id : Nat) (c : Cmd) : Block :=
  if !b.mounted then b.endWith id c stMalformed readNone
  else
    let b := if c.cursor = 0 then b.readBegin id c else b
    (b.skipOffline id 4096).readNext id

/-- LOGRD (R314, R318). -/
def execLogrd (t : TStep) (s : State) : Host.Outcome State Fault Refusal :=
  s.upd (tensorRow specLogrd (some 0) (fun id b => b.workOn id (fun c => c.op == .logrd) fun c b =>
    b.unlessFailed (fun b st => b.endWith id c st (readSoFar c)) fun b => b.logrd id c) t)

/-! Read retry (R317). -/

/-- The options at which a block is read again, in order: the one learnt, then LS_RR_DEF without those already tried; 16
reads in all with the first at the default level. (DEDUCED, log entry 97) -/
def Block.retryOptions (b : Block) (learnt : Option Nat) : List Nat :=
  ((learnt.toList ++ (List.range 16).map fun i => b.rf (LS_RR_DEF i) 0 8).eraseDups).take 15

/-- What the reads of a unit's codewords have come to: the options learnt, the codewords decoded after a retry and those
that are uncorrectable, whether one asks for a refresh (R320), the first damaged byte, and the data bytes. -/
structure UnitRead where
  learnt : SMap Nat
  retried : Nat
  uncorr : Nat
  sick : Bool
  damage : Option Nat
  bytes : List Byte
  deriving DecidableEq, Repr

/-- Codeword `k` of a unit is read, with its retries. -/
def Block.readWordAt (b : Block) (seg unit : Nat) (got : PageRead) (r : UnitRead) (k : Nat) : UnitRead :=
  let key := blockKey seg (k / 4)
  let stored := (List.range 4096).map fun i => unitByte b.flash.pages seg unit (4096 * k + i)
  match got.words.find? fun e => e.1 == k with
  | none => { r with bytes := r.bytes ++ stored }
  | some e =>
    let opts := b.retryOptions (SMap.find r.learnt key)
    match opts.findIdx? fun o => e.2.contains o with
    | some i =>
      { r with learnt := SMap.put r.learnt key (opts.getD i 0), retried := r.retried + 1, sick := r.sick || 4 < i + 1,
               bytes := r.bytes ++ stored }
    | none =>
      let raw := (((got.raw.find? fun e => e.1 == k).map (·.2)).getD []).take 4096
      { r with uncorr := r.uncorr + 1, sick := true, damage := some (r.damage.getD (4096 * k)),
               bytes := r.bytes ++ raw ++ stored.drop raw.length }

/-- The codewords of a unit that hold these of its data bytes. -/
def Block.readUnit (b : Block) (seg unit lo hi : Nat) (got : PageRead) : UnitRead :=
  ((List.range ((hi - 1) / 4096 + 1)).drop (lo / 4096)).foldl (b.readWordAt seg unit got)
    { learnt := b.ls.learnt, retried := 0, uncorr := 0, sick := false, damage := none, bytes := [] }

/-- The pages of a LOGRD's piece have been read (R317, R318). -/
def Block.readDone (b : Block) (id : Nat) (c : Cmd) (got : PageRead) : Block :=
  match readRun c with
  | none => b
  | some r => match r.pieces with
    | [] => b
    | p :: ps =>
      let off := lgOff c.pb
      let q := r.part c p
      let lo := q.1 - p.2.2.1
      let hi := q.2 - p.2.2.1
      let u := b.readUnit p.1 p.2.1 lo hi got
      let xs := (u.bytes.drop (lo - lo / 4096 * 4096)).take (hi - lo)
      let x := b.lsSeg p.1
      let pages := (hi - 1) / 16384 - lo / 16384 + 1
      let b := b.touchSeg p.1 { x with reads := x.reads + pages, sick := x.sick || u.sick }
      let b := (b.tally 0x05 (tgChan (segTarget p.1)) none b.fresh).used
      let b := (b.satAdd LS_ERR_RD 16 16 u.retried).tally 0x2C 0x3F none u.retried
      let b := b.setLs fun l => { l with learnt := u.learnt }
      let b := if 0 < u.uncorr then (b.satAdd LS_ERR_RD 0 16 u.uncorr).causeStorage 3 else b
      let b := if u.sick && x.state == 3 then b.reclaimDue p.1 1 else b
      let r := { r with retried := r.retried + u.retried, corrupt := r.corrupt || 0 < u.uncorr
                        damage := match u.damage with
                          | some d => min r.damage (max d lo + p.2.2.1 - off)
                          | none => r.damage }
      let c := { c with scratch := r.pack }
      b.readPut id c (q.1 - off) xs fun b c =>
        ((b.setCmd id { c with scratch := { r with pieces := ps }.pack }).skipOffline id 4096).readNext id

/-- The read of a command ends; the data of a command that is gone is discarded. (DEDUCED, log entry 51) -/
def Block.readOpDone (b : Block) (id : Nat) (got : PageRead) : Block :=
  match b.ls.ops.find? fun o => o.2.kind == 3 && o.2.cmd == id with
  | some o => (b.endOp o.1).whenLive fun b => b.workOn id (fun c => c.op == .logrd) fun c b => b.readDone id c got
  | none => b

/-- NAND_READ_DONE (R317). -/
def execNandReadDone (id : Nat) (got : PageRead) (s : State) : Host.Outcome State Fault Refusal :=
  s.upd fun b => b.guard b.nandRuns (·.readOpDone id got)

/-! Bus failures (R318). -/

/-- An operation whose target gives no ready or status is given up: what it was to program goes elsewhere. -/
def Block.opFails (b : Block) (o : NandOp) : Block :=
  if o.kind = 1 then (b.redoProgram { o with tries := 0 }).logSignal
  else if o.kind = 2 then b.unform o.segment
  else if o.kind = 4 then b.recsAgain o.recs
  else (b.skipOffline o.cmd 4096).readNext o.cmd

/-- A target gives no ready or status: the operation is retried once, where one may start again (R54, R74), then the target
is offline (R318). -/
def Block.busTimeout (b : Block) (n : Nat) : Block :=
  match SMap.find b.ls.ops n with
  | none => b
  | some o =>
    if o.bus = 0 then
      if o.kind = 3 ∨ b.mayProgram then
        b.setLs fun l => { l with ops := SMap.modify l.ops n fun o => { o with bus := 1 } }
      else (b.endOp n).opFails o
    else ((b.endOp n).goOffline o.target 4).opFails o

/-- NAND_BUS_TIMEOUT (R318). -/
def execNandBusTimeout (op : Nat) (s : State) : Host.Outcome State Fault Refusal :=
  s.upd fun b => b.whenLive (·.busTimeout op)

/-! Refresh and reclaim (R320, R322). -/

/-- A segment is due for a refresh by its age, its reads or its codewords. -/
def Block.needsRefresh (b : Block) (x : Segment) : Bool :=
  let days := b.rf LS_REFRESH 16 16
  let k := b.rf LS_REFRESH 0 16
  x.state == 3 &&
    ((b.ao.straps.tb && days ≠ 0 && days * 86400 * 10 ^ 9 < b.now - x.stamp * 2 ^ 30) || (k ≠ 0 && k * 1000 < x.reads) ||
      x.sick)

/-- LS_AGE_CHECK (R319, R320). -/
def Block.ageCheck (b : Block) : Block :=
  (b.each ((b.ls.segs.filter fun e => b.needsRefresh e.2).map (·.1)) fun b n => b.reclaimDue n 1).wearCheck

/-- LS_AGE_CHECK (R319, R320). -/
def execLsAgeCheck (s : State) : Host.Outcome State Fault Refusal :=
  s.upd fun b => b.whenLive fun b => b.guard b.mounted Block.ageCheck

/-- A reclaim begins: RCL_BEGIN is durable. -/
def Block.beginReclaim (b : Block) (src dst cause : Nat) (rest : List (Nat × Nat)) : Block :=
  let b := (b.actNow (recOf 6 src dst cause)).setLs fun l => { l with due := rest }
  (b.wf LS_STATUS 26 1 1).wf LS_STATUS 23 3 cause

/-- The reclaim that is due first begins, into an ERASED segment of a target outside its group; a DIRTY one is erased
first. -/
def Block.reclaimStart (b : Block) (dst : Nat) : Block :=
  match b.ls.due with
  | [] => b
  | (src, cause) :: rest =>
    let x := b.lsSeg src
    let d := b.lsSeg dst
    let outside := (b.groupSegs x.gseq).all fun n => segTarget n ≠ segTarget dst
    if x.state ≠ 3 ∧ x.state ≠ 2 then b.setLs fun l => { l with due := rest }
    else if b.ls.reclaim.isSome || !b.flash.hasSeg dst || !(b.candidates (segTarget dst) [0, 1]).contains dst ||
        !b.serves (segTarget dst) || b.spent (segTarget dst) || !outside || !b.mayProgram || !b.journalIdle then b
    else if d.state = 0 then b.startErase dst
    else b.beginReclaim src dst cause rest

/-- RECLAIM_START (R322). -/
def execReclaimStart (dst : Nat) (s : State) : Host.Outcome State Fault Refusal :=
  s.upd fun b => b.whenLive fun b => b.guard b.mounted (·.reclaimStart dst)

/-- The pages of a segment, copied to another with a new stamp (R322). -/
def copyPages (g : Word) (src dst : Nat) (info : WordInfo) (fill : List (Nat × Nat × Nat)) (m : SMap (List Codeword)) :
    SMap (List Codeword) :=
  fill.foldl (fun m p => putPages m dst p.1 0
    (unitPages g { info with off := p.2.1 } ((List.range p.2.2).map fun i => unitByte m src p.1 i))) m

/-- A reclaim whose source has left its group stops: the destination is DIRTY. (DEDUCED, log entry 51) -/
def Block.cancelReclaim (b : Block) (r : Reclaim) : Block :=
  ((b.touchSeg r.dst (dirtySeg (b.lsSeg r.dst))).setLs fun l => { l with reclaim := none }).showReclaim

/-- RCL_COMMIT is durable: the destination takes the source's place, and the units that wait for the source go to it. -/
def Block.commitReclaim (b : Block) (r : Reclaim) : Block :=
  let x := b.lsSeg r.src
  let info : WordInfo :=
    { kind := 1, stream := x.stream, valid := 0, gseq := x.gseq, off := 0, stamp := b.pageStamp, store := b.flash.store }
  let b := (b.setFlash fun f => { f with pages := copyPages f.geom r.src r.dst info x.fill f.pages }).actNow (recOf 7 r.src r.dst 0)
  let b := b.touchSeg r.dst { b.lsSeg r.dst with stamp := b.pageStamp }
  b.setLs fun l => { l with units := l.units.map fun u => if u.segment = r.src then { u with segment := r.dst } else u }

/-- A copy is complete: its source is still in the group that it had, and no program of it is in progress. -/
def Block.reclaimCommit (b : Block) : Block :=
  match b.ls.reclaim with
  | none => b
  | some r => b.guard (r.stage == 1 && b.mayProgram && b.journalIdle) fun b =>
      let x := b.lsSeg r.src
      if (x.state ≠ 2 ∧ x.state ≠ 3) ∨ x.gseq ≠ r.gseq then b.cancelReclaim r
      else b.guard (!b.segBusy r.src) (·.commitReclaim r)

/-- RECLAIM_COMMIT (R322). -/
def execReclaimCommit (s : State) : Host.Outcome State Fault Refusal :=
  s.upd fun b => b.whenLive fun b => b.guard b.mounted fun b => b.reclaimCommit.logSignal

/-- The source of a committed reclaim is erased, once no LOGRD reads it (R314, R322). -/
def Block.reclaimDone (b : Block) : Block :=
  match b.ls.reclaim with
  | none => b
  | some r => b.guard (r.stage == 2 && b.mayProgram && !b.beingRead r.src) fun b =>
      (b.setLs fun l => { l with ops := SMap.keep l.ops fun _ o => !(o.kind == 2 && o.segment == r.src) }).erased r.src

/-- RECLAIM_DONE (R322). -/
def execReclaimDone (s : State) : Host.Outcome State Fault Refusal :=
  s.upd fun b => b.whenLive fun b => b.guard b.mounted Block.reclaimDone

/-- LS_AUTO_CHECKPOINT (R311). -/
def execLsAutoCheckpoint (s : State) : Host.Outcome State Fault Refusal :=
  s.upd fun b => b.whenLive fun b => b.guard (b.mounted && 65536 ≤ b.ls.journal && b.mayProgram) fun b =>
    (b.checkpoint false).logSignal

end Sys2Proof.Machine
end

