-- ==== Sys2Proof/Machine/LogMount.lean ====
section
/-! DEFINITION. Training and identification of the NAND channels (11.1), the commands of LS_CMD (11.7), and what teardown and reset do to the log store. -/

namespace Sys2Proof.Machine

/-- A write of LS_CMD: one command at a time; other values of OP are ignored. -/
def Block.lsCmdWrite (b : Block) (data : Word) : Block :=
  let op := bits data 0 4
  if b.rb LS_CMD 31 || op = 0 || 7 < op then b
  else (b.wf LS_CMD 31 1 1).setLs fun l => { l with command := some op, result := none }

/-- The command's status is known. -/
def Block.lsResult (b : Block) (st : Nat) : Block := b.setLs fun l => { l with result := some st }

/-- The work of the command in progress. (DEDUCED, log entry 52) -/
def Block.lsCommand (b : Block) (op : Nat) (f : Block → Block) : Block :=
  b.guard (b.ls.command == some op && b.ls.result.isNone) fun b => b.unlessFailed Block.lsResult f

/-! Identification and training (R305, R307). -/

end Sys2Proof.Machine

namespace Sys2Proof

/-- What a target reports. -/
def NandScan.find (scan : NandScan) (t : Nat) : Option NandId := (scan.ids.find? fun e => e.1 == t).map (·.2)

/-- Blocks 0 to 7 of plane 0 of LUN 0 without the factory marking. -/
def NandScan.anchorBlocks (scan : NandScan) (t : Nat) : Nat :=
  ((List.range 8).filter fun k => !scan.marks.contains (t, 0, 0, k)).length

/-- The conditions of Table 11.1 beside the parameter page and the anchor blocks. -/
def NandId.fits (x : NandId) : Bool :=
  x.commands && x.dataBytes == 16384 && 1920 ≤ x.spareBytes && (x.planes == 1 || x.planes == 2 || x.planes == 4) &&
  1 ≤ x.luns && x.luns ≤ 4 && 64 ≤ x.pages && x.pages ≤ 16383 && x.planes * x.pages * 16384 ≤ 2 ^ 28 &&
  64 ≤ x.blocks && x.blocks ≤ 16383 && x.luns * x.planes * x.blocks * x.pages * 16384 ≤ 2 ^ 38 && 16 ≤ x.retries

/-- Two targets report the same geometry. -/
def NandId.sameGeom (x y : NandId) : Bool :=
  x.luns == y.luns && x.planes == y.planes && x.pages == y.pages && x.blocks == y.blocks

/-- A geometry as LS_GEOM shows it. -/
def NandId.geom (x : NandId) : Word :=
  BitVec.ofNat 32 ((x.luns - 1) * 2 ^ 30 + (if x.planes = 4 then 2 else x.planes - 1) * 2 ^ 28 + x.pages * 2 ^ 14 + x.blocks)

end Sys2Proof

namespace Sys2Proof.Machine

/-- Target 0 of the lowest present channel, whose geometry the others must have. -/
def Block.refTarget (b : Block) (scan : NandScan) : Option NandId :=
  ((List.range 8).find? fun c => b.ao.straps.nand.getLsbD c).bind fun c => scan.find (8 * c)

/-- WHY a target is taken offline (LS_CH); 0 for none. -/
def nandWhy (ref : Option NandId) (scan : NandScan) (t : Nat) (x : NandId) : Nat :=
  if !x.page then 1
  else if !x.fits || scan.anchorBlocks t < 2 then 2
  else match ref with
    | some r => if x.sameGeom r then 0 else 3
    | none => 0

/-- The codes from `d` on that all pass. -/
def passRun (codes : List Nat) : Nat → Nat → Nat
  | 0, _ => 0
  | fuel + 1, d => if d < 128 ∧ codes.contains d then 1 + passRun codes fuel (d + 1) else 0

/-- The centre of the widest run of passing delay codes; of equal ones the lowest, and of two middle codes the lower.
(DESIGN CHOICE, log entry 92) -/
def widestCentre (codes : List Nat) : Option Nat :=
  let runs := (List.range 128).map fun d => (d, passRun codes 128 d)
  let best := runs.foldl (fun x y => if x.2 < y.2 then y else x) (0, 0)
  if best.2 = 0 then none else some (best.1 + (best.2 - 1) / 2)

/-- The delay code of a channel: what the sweep finds, or with ONFI training one of the codes that pass, which is not given. -/
def Block.delayCode (b : Block) (trains : Bool) (codes : List Nat) : Option Nat :=
  if trains then b.pick (codes.filter (· < 128)) else widestCentre codes

/-- Train one channel: LS_CH and the delay codes. A channel that is absent has no target; one that has not trained has none
online. -/
def Block.trainChannel (b : Block) (scan : NandScan) (c : Nat) : Block :=
  if b.ao.straps.nand.getLsbD c then
    let ts := (List.range 8).filterMap fun i => (scan.find (8 * c + i)).map fun x => (i, x)
    let why := ts.map fun e => (e.1, nandWhy (b.refTarget scan) scan (8 * c + e.1) e.2)
    let mask := fun (l : List Nat) => (l.map fun i => 2 ^ i).sum
    let present := mask (ts.map (·.1))
    let bad := why.filter fun e => e.2 ≠ 0
    let passing := ((scan.passing.find? fun e => e.1 == c).map (·.2)).getD ([], [])
    let trains := ts.any fun e => e.2.training
    let rd := b.delayCode trains passing.1
    let wr := b.used.delayCode trains passing.2
    let ok := rd.isSome && wr.isSome
    let off := if ok then mask (bad.map (·.1)) else present
    (b.used.used.setReg (LS_CH c) (BitVec.ofNat 32
      (b2n ok * 2 ^ 31 + off * 2 ^ 16 + present * 2 ^ 8 + ((bad.getLast?).map (·.2)).getD 0))).setLs fun l =>
        { l with dly := SMap.put (SMap.put l.dly c (rd.getD 0x40)) (c + 8) (wr.getD 0x40) }
  else b.setReg (LS_CH c) 0

/-- Training of every channel, and LS_GEOM. -/
def Block.trainChannels (b : Block) (scan : NandScan) : Block :=
  let b := b.each (List.range 8) fun b c => b.trainChannel scan c
  b.setReg LS_GEOM (((b.refTarget scan).map NandId.geom).getD 0)

/-- Some channel has trained. -/
def Block.anyTrained (b : Block) : Bool := (List.range 8).any fun c => b.rb (LS_CH c) 31

/-- The targets that are online. -/
def Block.onlineMask (b : Block) : Nat := (List.range 64).foldl (fun acc t => if b.online t then acc + 2 ^ t else acc) 0

/-! MOUNT (R310, R323 to R325). -/

/-- The valid anchor with the highest ANCHOR_SEQ on the targets that are online governs (R310); the checkpoint that it names
is there. (DEDUCED, log entry 97) -/
def Block.governing (b : Block) (unread : List Nat) : Option Anchor :=
  let f := b.flash
  let found := f.anchors.filter fun e => b.online e.1 && !unread.contains e.1 && (match SMap.find f.anchorWords e.1 with
    | some w => validAnchor w e.2
    | none => false)
  let best := (found.map (·.2)).foldl (fun x y => match x with
    | some z => if z.seq < y.seq then some y else some z
    | none => some y) none
  best.filter fun a => f.formatted && a.storeId == f.storeId && a.ckptSeq == f.ckptSeq

/-- The journal since the checkpoint, replayed over it. -/
def Flash.replayed (f : Flash) : LogTables := f.journal.foldl (LogTables.apply f.spareBlocks) f.ckpt

/-- The sequence number of the last record (the header of the checkpoint where there is none). -/
def Flash.lastSeq (f : Flash) : Nat :=
  match f.journal.getLast? with
  | some r => r.seq
  | none => ((f.ckptWords.head?).map fun w => le w.data 8 4 - 1).getD 0

/-- The pieces that a stream's groups hold on flash, in the order in which they were written; a later piece takes the place of
one that it overlaps (R316). -/
def Flash.streamPieces (f : Flash) (t : LogTables) (groups : List Nat) : List (Nat × Nat × Nat × Nat) :=
  let all := groups.flatMap fun g =>
    let ns := t.groupSegs g
    (List.range (gmPages f.geom)).flatMap fun u => ns.filterMap fun n =>
      (unitHolds f.pages f.geom f.store n u g).map fun h => (n, u, h.1, h.2)
  all.foldl (fun ps p => (ps.filter fun q => !overlaps q.2.2.1 q.2.2.2 p.2.2.1 p.2.2.2) ++ [p]) []

/-- What a segment holds. -/
def fillOf (ps : List (Nat × Nat × Nat × Nat)) (n : Nat) : List (Nat × Nat × Nat) :=
  (ps.filter fun p => p.1 == n && 0 < p.2.2.2).map (·.2)

/-- The reclaim that was in progress is over: before its commit the destination is DIRTY, after it the source (Table 11.9). -/
def LogTables.stopReclaim (t : LogTables) : LogTables :=
  match t.reclaim with
  | some r => { t.setSeg r.left (dirtySeg (t.seg r.left)) with reclaim := none }
  | none => t

/-- The frontiers (R323): the pieces of every stream are found again, an OPEN segment is sealed, and END is the end of the
stream's run of pieces. -/
def Flash.frontiers (f : Flash) (t : LogTables) : LogTables :=
  let ps := t.streams.flatMap fun e => f.streamPieces t e.2.groups
  let restart := fun (_ : Nat) (x : LogStream) =>
    let mine := f.streamPieces t x.groups
    let e := runEnd mine mine.length x.start
    { x with endOff := e, next := e, unit := 0, left := 0 }
  { t with
    segs := SMap.mapVals t.segs fun n x => { x with fill := fillOf ps n, state := if x.state = 2 then 3 else x.state, sick := false }
    streams := SMap.mapVals t.streams restart }

/-- The segments that a mount finds due for a reclaim: the source of one that did not commit, every OPEN segment after a torn
operation, and segments that lost a block for good. -/
def Flash.dueAtMount (f : Flash) (t : LogTables) : List (Nat × Nat) :=
  let again := match t.reclaim with
    | some r => if r.stage = 1 then [(r.src, r.cause)] else []
    | none => []
  let opened := (t.stopReclaim.segs.filter fun e => e.2.state == 2).map (·.1)
  let dead := (t.stopReclaim.segs.filter fun e => e.2.dead && (e.2.state == 2 || e.2.state == 3)).map (·.1)
  let add := fun (ds : List (Nat × Nat)) (d : Nat × Nat) => if ds.any fun e => e.1 == d.1 then ds else ds ++ [d]
  (again ++ (if f.torn then opened.map fun n => (n, 4) else []) ++ dead.map fun n => (n, 3)).foldl add []

/-- The tables that a mount starts from (R323). -/
def Block.loadTables (b : Block) : Block :=
  let f := b.flash
  let t := f.replayed
  let b := b.setLs fun l =>
    { l.withTables (f.frontiers t.stopReclaim) with
      units := [], ops := [], forming := [], sysUse := b.fresh, due := f.dueAtMount t, journal := f.journal.length, unsaved := [],
      jseq := f.lastSeq, blockFails := [], memFail := none }
  (b.used).setFlash fun f => { f with torn := false }

/-- The format as the governing anchor gives it. -/
def Flash.asAnchored (f : Flash) (a : Anchor) : Flash :=
  { f with geom := a.geom, sparePct := a.sparePct, stripe := a.stripe, targets := a.targets, clean := f.clean && a.clean }

/-- MOUNT (R323 to R325). (DEDUCED, log entry 52) -/
def Block.lsMount (b : Block) (scan : NandScan) : Block :=
  if b.mounted then b.lsResult stMalformed
  else
    let b := b.trainChannels scan
    if !b.anyTrained then b.lsResult stLasting
    else match b.governing scan.unread with
      | none => (b.wf LS_STATUS 28 1 1).lsResult stMalformed
      | some a =>
        let b := b.setFlash fun f => f.asAnchored a
        let need := b.flash.memNeed
        let b := (b.wf LS_MEM_NEED 0 16 need).wf LS_STATUS 28 1 0
        if b.rf LS_MEM_SIZE 0 16 < need then b.lsResult stMalformed
        else
          let b := b.loadTables
          let b := (((b.wf LS_STATUS 31 1 1).wf LS_STATUS 30 1 0).wf LS_STATUS 29 1 (b2n b.flash.clean)).wf LS_STATUS 27 1 1
          let b := b.wf LS_ERR_WR 0 16 (min b.flash.retired 0xFFFF)
          b.checkReadOnly.lsResult stDone

/-- LS_MOUNT (R325). -/
def execLsMount (scan : NandScan) (s : State) : Host.Outcome State Fault Refusal :=
  s.upd fun b => b.whenLive fun b => b.lsCommand 1 (·.lsMount scan)

/-! UNMOUNT. -/

/-- No accepted LOGRD or LOGWR of the streams that `p` accepts is left. -/
def Block.logQuiet (b : Block) (p : Nat → Bool) : Bool :=
  b.fk.cmds.all fun e => !(e.2.op == .logrd || e.2.op == .logwr) || e.2.phase ≠ .accepted || !p (lgStream e.2.pb)

/-- UNMOUNT: accepted commands end, open units are programmed, and a clean checkpoint is written where it may be (R74). -/
def Block.lsUnmount (b : Block) : Block :=
  if !b.mounted then b.lsResult stMalformed
  else if !b.logQuiet fun _ => true then b
  else if !b.ls.units.isEmpty then b.each (SMap.keys b.ls.streams) Block.flushUnit
  else if !b.ls.ops.isEmpty || !b.mayProgram then b
  else
    let b := b.checkpoint true
    let b := b.setLs fun l =>
      { l with segs := [], streams := [], forming := [], due := [], reclaim := none, learnt := [], subst := [], spares := [] }
    ((((b.wf LS_STATUS 31 1 0).wf LS_STATUS 27 1 0).wf LS_STATUS 26 1 0).wf LS_STATUS 23 3 0).lsResult stDone

/-- LS_UNMOUNT (R325). -/
def execLsUnmount (s : State) : Host.Outcome State Fault Refusal :=
  s.upd fun b => b.whenLive fun b => b.lsCommand 2 Block.lsUnmount

/-! FORMAT. -/

/-- A factory-marked block: a spare one is not used, another takes a spare, or its segment is RETIRED (R321). Blocks of the
anchor area are left as they are (R310). -/
def LogTables.factoryBad (first : Nat) (all : List Nat) (t : LogTables) (m : Nat × Nat × Nat × Nat) : LogTables :=
  let n := segNo m.1 m.2.1 m.2.2.2
  let key := blockKey n m.2.2.1
  let p := planeKey n m.2.2.1
  if isAnchorSeg n then t
  else if first ≤ m.2.2.2 then t.useSpare all p m.2.2.2
  else t.retire all key (((SMap.find t.spares p).getD all).headD noSpare)

/-- The marks of the store's blocks, those of spare blocks first. -/
def Flash.marks (f : Flash) (scan : NandScan) : List (Nat × Nat × Nat × Nat) :=
  let ms := scan.marks.filter fun m => f.targets.testBit m.1 && m.2.1 < gmLuns f.geom && m.2.2.1 < gmPlanes f.geom &&
    m.2.2.2 < gmBlocks f.geom
  let spare := fun (m : Nat × Nat × Nat × Nat) => f.spareBlocks.contains m.2.2.2
  ms.filter spare ++ ms.filter fun m => !spare m

/-- The tables of a new store. -/
def Flash.emptyTables (f : Flash) (scan : NandScan) : LogTables :=
  (f.marks scan).foldl (LogTables.factoryBad (gmBlocks f.geom - f.spareStart) f.spareBlocks)
    { segs := [], streams := [], subst := [], spares := [], learnt := [], reclaim := none, gseq := 0 }

/-- STORE_ID: drawn from the timebase through gen (R310). Its other arguments are not given: a free value.
(DESIGN CHOICE, log entry 92) -/
def Block.newStoreId (b : Block) : Dword :=
  BitVec.ofNat 64 (gen b.now (b.fresh % 2 ^ 16) (b.fresh / 2 ^ 16 % 2 ^ 32) (b.fresh / 2 ^ 48))

/-- FORMAT writes the empty tables and the anchors; pages of an earlier store stay and are never good (R309). -/
def Block.writeFormat (b : Block) (scan : NandScan) (pct stripe : Nat) : Block :=
  let b := b.setFlash fun f =>
    { f with formatted := true, torn := false, storeId := b.newStoreId, geom := b.reg LS_GEOM, stripe := stripe, sparePct := pct,
             targets := b.onlineMask }
  let b := b.used.setFlash fun f => { f with retired := (f.marks scan).length }
  let b := (b.setLs fun l => { l with jseq := 0 }).saveTables (b.flash.emptyTables scan) false
  (b.wf LS_MEM_NEED 0 16 b.flash.memNeed).lsResult stDone

/-- FORMAT (R321, R324, R325), where program and erase may start (R74). (DEDUCED, log entry 52) -/
def Block.lsFormat (b : Block) (scan : NandScan) : Block :=
  let pct := b.rf LS_FMT 0 8
  let stripe := b.rf LS_FMT 8 8
  if b.mounted || pct < 4 || 25 < pct || stripe < 1 || 64 < stripe then b.lsResult stMalformed
  else b.guard b.mayProgram fun b =>
    let b := b.trainChannels scan
    if !b.anyTrained then b.lsResult stLasting else b.writeFormat scan pct stripe

/-- LS_FORMAT (R325). -/
def execLsFormat (scan : NandScan) (s : State) : Host.Outcome State Fault Refusal :=
  s.upd fun b => b.whenLive fun b => b.lsCommand 3 (·.lsFormat scan)

/-! The other commands. -/

/-- LS_CHECKPOINT (R325). -/
def execLsCheckpoint (s : State) : Host.Outcome State Fault Refusal :=
  s.upd fun b => b.whenLive fun b => b.lsCommand 4 fun b =>
    if b.mounted then b.guard b.mayProgram fun b => ((b.checkpoint false).logSignal).lsResult stDone else b.lsResult stMalformed

/-- The stream that LS_STR_SEL selects. -/
def Block.lsSel (b : Block) : Nat := b.rf LS_STR_SEL 0 5

/-- A command's record is made and goes to flash; LS_CMD_DONE waits for it. -/
def Block.lsRecord (b : Block) (r : JRec) : Block := (b.act { r with stream := b.lsSel }).logSignal.lsResult stDone

/-- CREATE (R325). -/
def Block.lsCreate (b : Block) : Block :=
  if !b.mounted || (b.lsStream b.lsSel).isSome then b.lsResult stMalformed
  else b.lsRecord (recOf 4 0 (b2n (bit (b.lsBound b.lsSel) 16)) 0)

/-- LS_CREATE (R325). -/
def execLsCreate (s : State) : Host.Outcome State Fault Refusal :=
  s.upd fun b => b.whenLive fun b => b.lsCommand 5 Block.lsCreate

/-- DELETE (R325): it waits for the stream's accepted commands. -/
def Block.lsDelete (b : Block) : Block :=
  if !b.mounted then b.lsResult stMalformed
  else match b.lsStream b.lsSel with
    | none => b.lsResult stMalformed
    | some _ =>
      let s := b.lsSel
      if !b.logQuiet (fun k => k == s) || b.ls.ops.any (fun o => o.2.kind == 1 && o.2.stream == s) then b
      else
        let b := b.setLs fun l => { l with units := l.units.filter fun u => u.stream ≠ s, forming := SMap.erase l.forming s }
        b.lsRecord (recOf 4 1 0 0)

/-- LS_DELETE (R325). -/
def execLsDelete (s : State) : Host.Outcome State Fault Refusal :=
  s.upd fun b => b.whenLive fun b => b.lsCommand 6 Block.lsDelete

/-- The newest group of a stream, where it takes no more units and lies wholly below START, is DIRTY too. -/
def Block.dropNewest (b : Block) (s : Nat) : Block :=
  match b.lsStream s with
  | none => b
  | some x => match x.groups with
    | [g] => b.guard (x.left == 0 && x.next == x.endOff && x.endOff ≤ x.start && !b.undurable fun r => r.type == 5) fun b =>
        b.setLs fun l => l.withTables (l.tables.dirty (b.groupSegs g))
    | _ => b

/-- TRIM (R325). -/
def Block.lsTrim (b : Block) : Block :=
  if !b.mounted then b.lsResult stMalformed
  else match b.lsStream b.lsSel with
    | none => b.lsResult stMalformed
    | some x => (b.trimTo b.lsSel (max x.start (min (b.pair LS_STR_TRIM_LO) x.endOff))).logSignal.lsResult stDone

/-- LS_TRIM (R325). -/
def execLsTrim (s : State) : Host.Outcome State Fault Refusal :=
  s.upd fun b => b.whenLive fun b => b.lsCommand 7 Block.lsTrim

/-- The command ends once its record is durable: its status appears, BUSY clears, the cause is set (R325). -/
def Block.lsCmdDone (b : Block) (us : Nat) : Block :=
  match b.ls.command, b.ls.result with
  | some op, some st =>
    if b.undurable fun r => r.type == 4 || r.type == 5 then b.logSignal
    else
      let b := if op = 1 then b.wf LS_STATUS 0 23 (min us (2 ^ 23 - 1)) else b
      let b := b.guard (op == 7) fun b => b.dropNewest b.lsSel
      (((b.wf LS_CMD 31 1 0).wf LS_CMD 16 8 st).setLs fun l => { l with command := none, result := none }).causeStorage 0
  | _, _ => b

/-- LS_CMD_DONE (R325). -/
def execLsCmdDone (us : Nat) (s : State) : Host.Outcome State Fault Refusal :=
  s.upd fun b => b.whenLive (·.lsCmdDone us)

/-! Teardown and reset (R316, R326). -/

/-- Teardown of a context unbinds its streams (11.7). -/
def Block.unbindLogs (b : Block) (ctx : Nat) : Block :=
  b.setLs fun l => { l with bound := SMap.mapVals l.bound fun _ w =>
    if w / 2 ^ 30 % 2 = 1 ∧ w / 2 ^ 24 % 64 = ctx then w - 2 ^ 30 else w }

/-- What an operation that is cut off leaves (R306): an erased block, or a page that is not good. -/
def tornPages (m : SMap (List Codeword)) (o : NandOp) : SMap (List Codeword) :=
  if o.kind = 2 then erasePages m o.segment else m

/-- The store is unmounted by a reset; what the devices hold stays (R326), but for programs and erases that are still in
progress, which are torn (Table 11.9). (DEDUCED, log entry 51) -/
def Block.lsLost (b : Block) : Block :=
  let cut := (b.ls.ops.map (·.2)).filter fun o => o.kind ≠ 3
  b.setFlash fun f => { f with torn := f.torn || !cut.isEmpty, pages := cut.foldl tornPages f.pages }

end Sys2Proof.Machine
end

