-- ==== Sys2Proof/Machine/Accept.lean ====
section
/-! DEFINITION. Acceptance of tensor commands by their units (R155, R156), and the actions of software on a suspended transfer (R127). -/

namespace Sys2Proof.Machine

/-! The checks of R156. -/

/-- The operands that a command reads or writes (Table 5.12). -/
def Cmd.operands (c : Cmd) : List Desc :=
  match c.op with
  | .mma | .skid => [c.ta, c.tb]
  | .mmaZero | .slotVoid => []
  | .mmaStore | .takeFrame | .takeRegion | .logrd | .logwr | .slotPlace => [c.ta]
  | .win => wOperands c
  | .rsmp | .warp => [c.ta, c.tc]
  | .gather | .scatter => [c.ta, c.tb, c.tc]
  | .codec => if codecMoves c.pb then [c.ta, c.tb] else []

/-- Check 1: a field names no unit, or an absent port (R44). -/
def Block.namesNothing (b : Block) (c : Cmd) : Bool :=
  match c.unit with
  | .take s => 48 ≤ s || !b.camPresent (s / 4)
  | .session n => 32 ≤ n || 2 ≤ cdUnit c.pb
  | .records n => 16 ≤ n
  | .openAny => 2 ≤ cdUnit c.pb
  | _ => false

/-- The units of Table 15.3 that a command needs in service. (DEDUCED, log entry 66) -/
def Cmd.needsUnits (c : Cmd) : List Nat :=
  match c.unit with
  | .engine e => [unitId 0x2 e, unitId 0x1 (e / 4)]
  | .skidder k => [unitId 0x6 k]
  | .gather => [unitId 0x6 16]
  | .take s => unitId 0x5 (s / 4) :: (if tkPart c.pb = 2 then [unitId 0x5 32] else [])
  | .session _ => [unitId 0x5 33]
  | .records _ => [unitId 0x5 34]
  | .openAny => [unitId 0x5 (33 + cdUnit c.pb)]
  | .logStore => [unitId 0x5 48]
  | .landing _ => []

/-- Check 2: a unit out of service. -/
def Block.unitGone (b : Block) (c : Cmd) : Bool := c.needsUnits.any b.isOut

/-- Check 3: the CTX of each operand is the job's (Table 4.7, check 2). -/
def Block.ctxOk (b : Block) (c : Cmd) : Bool :=
  match b.ctxOfCmd c with
  | some x => c.operands.all fun d => dCtx d == x
  | none => false

/-- The operations that Table 6.3 does not list require an identity PERM (R173). (DEDUCED, log entry 31) -/
def TOp.unlisted : TOp → Bool
  | .takeFrame | .takeRegion | .codec | .logrd | .logwr | .slotPlace => true
  | _ => false

/-- Check 4: the checks of the owning chapters. (DEDUCED, log entry 31) -/
def Block.acceptOwn (b : Block) (c : Cmd) : Option Nat :=
  if c.op.unlisted && !c.operands.all permId then some stMalformed
  else match c.op with
    | .mma | .mmaZero | .mmaStore => b.acceptMma c
    | .win => c.acceptWin
    | .rsmp | .warp => c.acceptRs
    | .skid | .gather | .scatter => c.acceptMove
    | .takeFrame | .takeRegion => b.acceptTake c
    | .codec => b.acceptCodec c
    | .logrd | .logwr => b.acceptLog c
    | .slotPlace | .slotVoid => none

/-- R156: the status of the first check that fails. -/
def Block.acceptStatus (b : Block) (c : Cmd) : Option Nat :=
  if b.namesNothing c then some stMalformed
  else if b.unitGone c then some stLasting
  else if !b.ctxOk c then some stProtect
  else b.acceptOwn c

/-- The unit's next command to accept: its commands are accepted in the order they reached it (R155), and an engine
accepts a command when the ones before it are over, since its checks read the accumulator banks.
(DEDUCED, log entry 31) -/
def Block.nextToAccept (b : Block) (id : Nat) (c : Cmd) : Bool :=
  match c.unit with
  | .engine _ => b.firstOf id c
  | _ => b.fk.cmds.all fun e => e.2.unit ≠ c.unit || e.2.phase ≠ .queued || id ≤ e.1

/-- A command is accepted: an MMA sets the class of its bank (R196), the codec and the log store serve their units in
acceptance order (R281, R313), and a LOGRD takes its range (R314). (DEDUCED, log entry 52) -/
def Block.accepted (b : Block) (id : Nat) (c : Cmd) : Block :=
  match c.op with
  | .mma => (b.mmaClaim c).setCmd id { c with phase := .accepted }
  | .codec | .logwr => (b.setCmd id { c with phase := .accepted, order := b.nextId }).bumpId
  | .logrd =>
    (b.setCmd id { c with phase := .accepted, order := b.nextId
                          scratch := ((b.readTaken c).map ReadRun.pack).getD [] }).bumpId
  | _ => b.setCmd id { c with phase := .accepted }

/-- A unit takes its next command (R156). -/
def Block.acceptCmd (b : Block) (id : Nat) : Block :=
  match b.findCmd id with
  | none => b
  | some c => b.guard (c.phase == .queued && b.nextToAccept id c && !b.cmdWaits c) fun b =>
    match b.acceptStatus c with
    | none => b.accepted id c
    | some st => b.finish id st

/-- COMMAND_ACCEPT (R156). -/
def execCommandAccept (id : Nat) (s : State) : Host.Outcome State Fault Refusal :=
  s.upd fun b => b.whenLive (·.acceptCmd id)

/-! Actions on suspended transfers (R127, R191, R192). -/

/-- An FID is free again (R124). -/
def Block.freeFid (b : Block) (fid : Nat) : Block := b.setXl fun t => { t with fids := SMap.erase t.fids fid }

/-- A suspended command goes back to its unit: it takes the next free place, before commands that have not begun
(R328). (DEDUCED, log entry 30) -/
def Cmd.resumed (c : Cmd) : Cmd := { c with phase := .accepted, active := false, order := 0, lines := [] }

/-- The transfer continues from its cursor (R191); the progress word says so (R190). -/
def Block.resumeWho (b : Block) (w : Suspender) : Block :=
  match w with
  | .cmd id => match b.findCmd id with
    | some c => (b.progress c false false 0 c.cursor).setCmd id c.resumed
    | none => b
  | _ => b

/-- The transfer ends with fill and the status of its KIND (R127, R192). -/
def Block.abortWho (b : Block) (w : Suspender) (kind : Nat) : Block :=
  let b := match w with
    | .cmd id => b.modCmd id Cmd.resumed
    | _ => b
  b.failWho w (if kind = 0 then stXlate else stProtect)

/-- A write to XL_FQ_ACT (R127). -/
def Block.xlFqAct (b : Block) (data : Word) : Block :=
  let fid := bits data 0 8
  match SMap.find b.fk.xl.fids fid with
  | none => b.badAct
  | some x =>
    if x.seq.toNat ≠ bits data 8 8 then b.badAct
    else if bits data 30 2 = 1 then (b.freeFid fid).resumeWho x.who
    else if bits data 30 2 = 2 then (b.freeFid fid).abortWho x.who x.kind
    else b.badAct

/-- XL_FQ_RESUME (R127). -/
def execXlFqResume (data : Word) (s : State) : Host.Outcome State Fault Refusal :=
  s.upd fun b => b.portWrite XL_FQ_ACT data (·.xlFqAct data)
/-- XL_FQ_ABORT (R127). -/
def execXlFqAbort (data : Word) (s : State) : Host.Outcome State Fault Refusal :=
  s.upd fun b => b.portWrite XL_FQ_ACT data (·.xlFqAct data)

end Sys2Proof.Machine
end

