-- ==== Sys2Proof/Machine/Contexts.lean ====
section
/-! DEFINITION. What a teardown or a reset ends (R193, R282, R283, R316, R345, R375), and the teardown of a translation context (R401). -/

namespace Sys2Proof.Machine

/-! Ending commands. -/

/-- A LOGWR that has begun leaves appended what is durable (R316). (DEDUCED, log entry 63) -/
def Block.cutLogwr (b : Block) (id : Nat) (c : Cmd) (st : Nat) : Block :=
  let b := b.endCmd id { c with result := BitVec.ofNat 56 (logRun c).1 } st
  b.guard (c.scratch ≠ []) (·.cutStream (lgStream c.pb) (logRun c).1 (logRun c).2)

/-- A command is ended by a teardown or a reset: it writes no fill, and its FID and its staging units are free (R193). A
command whose work is over ends with its own status. (DEDUCED, log entry 63) -/
def Block.cutCmd (b : Block) (id : Nat) (c : Cmd) (st : Nat) : Block :=
  match c.phase with
  | .finished _ => b
  | _ =>
    let b := b.endSusp (.cmd id)
    match c.op with
    | .codec => b.cutCodec id c st
    | .logwr => b.cutLogwr id c st
    | .logrd => b.endCmd id { c with result := BitVec.ofNat 56 (readSoFar c) } st
    | _ => b.endCmd id c st

/-- End the commands that `p` accepts. -/
def Block.cutCmds (b : Block) (st : Nat) (p : Cmd → Bool) : Block :=
  b.each (b.cmdsOf p) fun b e => match b.findCmd e.1 with
    | some c => b.cutCmd e.1 c st
    | none => b

/-- A receive port is cleared (Table 14.8): its decks are refused from now on, and a record that it has not written is not
written. -/
def Block.rxpClear (b : Block) (r : Nat) : Block :=
  (((b.wf (FL_RXP r 0x00) 31 1 0).endSusp (.rxPort r)).rxpOff r).setFlume fun f => { f with rx := SMap.erase f.rx r }

/-! Teardown (R401). -/

/-- The context of a command's job. -/
def Block.cmdIn (b : Block) (ctx : Nat) (c : Cmd) : Bool := b.ctxOfCmd c == some ctx

/-- The jobs of a context. -/
def Block.jobsIn (b : Block) (ctx : Nat) : List (Nat × Job) := b.fk.jobs.filter fun e => e.2.ctx == ctx

/-- The jobs of a context, those of a lower queue first: of completions ready at the same moment the lower SQ's is written
first (R397). (DEDUCED, log entry 62) -/
def Block.jobsBySq (b : Block) (ctx : Nat) : List (Nat × Job) :=
  (List.range 64).flatMap fun n => (b.jobsIn ctx).filter fun e => e.2.sq == n

/-- The queues of a context that run, drain or are stopped. -/
def Block.queuesIn (b : Block) (ctx : Nat) : List Nat :=
  (List.range 64).filter fun n => b.sqState n ≠ 0 && b.sqCtx n == ctx

/-- Sessions and record streams of a context close (R282). -/
def Block.closeCodecOf (b : Block) (ctx : Nat) : Block :=
  let b := b.each ((b.fk.codec.sessions.filter fun e => e.2.ctx == ctx).map (·.1)) Block.closeSession
  b.each ((b.fk.codec.records.filter fun e => e.2 == ctx).map (·.1)) Block.closeRecords

/-- The deck channels of a context are disabled, and its receive ports cleared. -/
def Block.dropLinksOf (b : Block) (ctx : Nat) : Block :=
  let cs := (b.fk.decks.filter fun e => b.deckEn e.1 && bits e.2.ctrl 16 6 == ctx).map (·.1)
  let b := b.each cs Block.dkDisable
  b.each ((List.range 16).filter fun r => b.rxpEn r && b.rxpCtx r == ctx) Block.rxpClear

/-- Steps 1 to 3 of Table 14.8. (DEDUCED, log entry 63) -/
def Block.teardown (b : Block) (c : Nat) : Block :=
  let b := (b.wf (XL_CTX_CFG c) 31 1 0).wf (XL_CTX_CFG c) 28 2 2
  let b := b.each ((b.queuesIn c).filter fun n => b.sqState n ≠ 2) Block.sqDrain
  let b := b.each (b.jobsIn c) fun b e => b.endJob e.1 stTeardown
  let b := b.cutCmds stTeardown (b.cmdIn c)
  ((b.closeCodecOf c).unbindLogs c).dropLinksOf c

/-- A write to XL_CTX_CFG[c] (Table 4.9): EN = 1 acts while STATE is off, EN = 0 while it is active. -/
def Block.xlCtxWrite (b : Block) (c : Nat) (data : Word) : Block :=
  match b.rf (XL_CTX_CFG c) 28 2 with
  | 0 => if bit data 31 then (b.wf (XL_CTX_CFG c) 31 1 1).wf (XL_CTX_CFG c) 28 2 1 else b
  | 1 => if bit data 31 then b else b.teardown c
  | _ => b

/-- XL_CTX_ENABLE (R117). -/
def execXlCtxEnable (c : Nat) (data : Word) (s : State) : Host.Outcome State Fault Refusal :=
  s.upd fun b => b.guard (c < 64) fun b => b.portWrite (XL_CTX_CFG c) data (·.xlCtxWrite c data)
/-- CONTEXT_TEARDOWN (R401). -/
def execContextTeardown (c : Nat) (data : Word) (s : State) : Host.Outcome State Fault Refusal :=
  s.upd fun b => b.guard (c < 64) fun b => b.portWrite (XL_CTX_CFG c) data (·.xlCtxWrite c data)

/-- Nothing of the context is left but what completions report: its jobs are done, and no queue of it has a completion to
write. -/
def Block.tornDown (b : Block) (c : Nat) : Bool :=
  (b.jobsIn c).isEmpty && (b.queuesIn c).all fun n =>
    (b.q n).starting == 0 && !(b.fk.rings.any fun e => e.2.pend.any fun x => x.sq == n)

/-- Step 7 of Table 14.8. -/
def Block.tearEnd (b : Block) (c us : Nat) : Block :=
  let b := (b.purge (Inval.ofCtx c)).wf (XL_CTX_CFG c) 28 2 0
  let b := (b.setReg QM_TDN (BitVec.ofNat 32 (2 ^ 31 + c * 2 ^ 16 + min us 0xFFFF))).causeControl 18
  b.each (b.queuesIn c) Block.queueOff

/-- Steps 5 to 7 of Table 14.8, once step 4 is done: jobs that are done complete, and the teardown ends when their
completions are written. (DEDUCED, log entry 63) -/
def Block.tearComplete (b : Block) (c us : Nat) : Block :=
  b.guard (c < 64 && b.rf (XL_CTX_CFG c) 28 2 == 2 && b.ctxQuiet c) fun b =>
    let b := b.each (b.jobsBySq c) fun b e => b.guard (b.jobDone e.1 e.2) fun b => b.completeJob e.1 e.2
    b.guard (b.tornDown c) fun b => b.tearEnd c us

/-- TEARDOWN_COMPLETE (R401): `us` is the teardown's duration. -/
def execTeardownComplete (c us : Nat) (s : State) : Host.Outcome State Fault Refusal :=
  s.upd fun b => b.whenLive (·.tearComplete c us)

end Sys2Proof.Machine
end

