-- ==== Sys2Proof/Machine/MemoryPort.lean ====
section
/-! DEFINITION. The memory channels (2.4): transfers of requests under their tags and caps (R58, R59, R61, R329, R454), and the responses (R60, R62, R63, R390). -/

namespace Sys2Proof.Machine

/-- The channels transfer: the block domain is out of reset, in self-test too, or in steps 1 to 4 of Table 2.7 with VDD_FK
in range (R53, R60). -/
def Block.memRuns (b : Block) : Bool :=
  b.live || (b.pins.vddAo && b.pins.coldN && b.ao.phase == .selfTest) ||
    (b.pins.vddAo && b.pins.vddFk && b.ao.phase == .entering)

/-! Requests. -/

/-- The agent has something to access, where its own step makes the access: a write of OWN names the byte of the oldest
entry started (R390), and the log store stays in its working region (R324). (DEDUCED, log entry 15) -/
def Block.agentWorks (b : Block) (r : MemReq) : Bool :=
  match r.agent with
  | .walk => true
  | .fetch n => n < 64 && (b.q n).scanning
  | .own n => n < 64 && 0 < (b.q n).starting && r.line == b.entryAddr n (b.sqHead n) / 64 && r.be == 0x80
  | .ring n => n < 16 && !(b.ring n).pend.isEmpty
  | .faultRing => !b.fk.xl.records.isEmpty
  | .landing _ | .rxPort _ => !r.write
  | .logStore => b.inLogRegion r.line
  | .skidder .. | .gather _ => false

/-- The request is the next line read of its command (R29, R327, R333): of a skidder's in order, of the gather engine any
that the command lacks. (DEDUCED, log entry 15) -/
def Block.nextRead (b : Block) (r : MemReq) : Bool :=
  match r.agent with
  | .skidder k id => match b.findCmd id with
    | some c => c.unit == .skidder k && b.nextLine k id c == some r.line
    | none => false
  | .gather id => match b.findCmd id with
    | some c => c.unit == .gather && (b.lineWants id c).1.contains r.line
    | none => false
  | _ => false

/-- The write that a request makes, where it is owed: of a skidder's the oldest (R29). -/
def Block.owedFor (b : Block) (r : MemReq) : Option Retry :=
  match r.agent with
  | .skidder k _ => (b.fk.owed.find? fun x => x.req.agent.ofSkidder k).filter (·.req == r)
  | _ => b.fk.owed.find? (·.req == r)

/-- No access in flight, and none that waits for its retry, keeps the line from this request (R61). -/
def Block.lineFree (b : Block) (r : MemReq) : Bool :=
  let clash := fun (q : MemReq) => q.line == r.line && (q.write || r.write)
  !(b.fk.rdTags.any fun e => clash e.2.req) && !(b.fk.wrTags.any fun e => clash e.2.req) &&
    !(b.fk.retries.any fun x => x.req ≠ r && clash x.req)

/-- The retry that a request is, if it is one (R63). -/
def Block.retryOf (b : Block) (r : MemReq) : Option Retry := b.fk.retries.find? fun x => x.req == r

/-- The block makes this request: a retry, a write that is owed, the next read of a command, or an access of an agent's own
step. -/
def Block.makes (b : Block) (r : MemReq) : Bool :=
  (b.retryOf r).isSome || (if r.write then (b.owedFor r).isSome else b.nextRead r) || b.agentWorks r

/-- The channel has a request presented: out of reset whatever the block makes, and in entry to reset one in each direction,
the one that stood presented when the cause appeared; which one that was is not defined (R48, R53, Table 2.7 step 3).
(DEDUCED, log entry 15) -/
def Block.presents (b : Block) (r : MemReq) : Bool :=
  b.ao.phase ≠ .entering || !b.fk.entered.contains (r.write, b.chanOf r.line)

/-- A request may transfer when a tag is free. (DEDUCED, log entry 15) -/
def Block.mayRequest (b : Block) (r : MemReq) : Bool :=
  b.memRuns && r.line < 2 ^ 46 && (!r.write || r.be ≠ 0) && b.lineFree r && b.capOk r.write r.agent && b.makes r &&
    b.presents r

/-! The order of grants (R329). -/

/-- The agents of R329's round, in a circle; a walk stands outside it. -/
def agentTurn : Agent → Nat
  | .skidder k _ => k
  | .gather _ => 16
  | .landing _ | .rxPort _ => 17
  | .logStore => 18
  | .fetch _ | .own _ | .ring _ | .faultRing => 19
  | .walk => 20

/-- How far an agent stands from the next grant: a walk is first, then the agents after the one served last. -/
def Block.grantRank (b : Block) (a : Agent) : Nat :=
  if a = .walk then 0 else 1 + (agentTurn a + 20 - (b.fk.served + 1) % 20) % 20

/-- No request that waits for a tag of this pool comes before this one. (DEDUCED, log entry 15) -/
def Block.grants (b : Block) (r : MemReq) : Bool :=
  b.fk.waits.all fun w => w.write ≠ r.write || !b.mayRequest w || b.grantRank r.agent ≤ b.grantRank w.agent

/-- A request that finds no tag waits; it holds none (R29, R329). -/
def Block.waitTag (b : Block) (r : MemReq) : Block :=
  b.guard (!b.fk.waits.contains r) (·.setFk fun k => { k with waits := k.waits ++ [r] })

/-- A request leaves what waits: it takes tag `t`. -/
def Block.takeTag (b : Block) (r : MemReq) (t : Nat) : Block :=
  let x := b.retryOf r
  let o := if x.isSome then none else b.owedFor r
  let serial := ((x.or o).map (·.serial)).getD b.fk.serial
  (b.putTag r.write t { req := r, chan := b.chanOf r.line, retry := x.isSome, serial := serial }).setFk fun k =>
    { k with retries := (x.map k.retries.erase).getD k.retries, owed := (o.map k.owed.erase).getD k.owed
             waits := k.waits.erase r, serial := if (x.or o).isSome then k.serial else k.serial + 1
             served := if r.agent = .walk then k.served else agentTurn r.agent
             entered := if b.ao.phase = .entering then k.entered ++ [(r.write, b.chanOf r.line)] else k.entered }

/-- A request transfers under a free tag, which of them is not defined (R59), once no other comes before it; without one it
waits. (DEDUCED, log entry 15) -/
def Block.requestTransfer (b : Block) (r : MemReq) : Block :=
  b.guard (b.mayRequest r) fun b => match b.pick (b.freeTags r.write) with
    | none => b.waitTag r
    | some t => if b.grants r then b.used.takeTag r t else b.waitTag r

/-- MEM_REQUEST_TRANSFER (R48, R59, R61). -/
def execMemRequestTransfer (r : MemReq) (s : State) : Host.Outcome State Fault Refusal :=
  s.upd fun b => b.requestTransfer r

/-! Responses. -/

/-- A response whose tag is not in use (R62). -/
def Block.spurious (b : Block) : Block := b.satAdd GLB_MSPUR 0 16 1

/-- An access has failed for good (Table 2.11, R63): the operation of a command fails, and a line whose write failed has
undefined content. A line that a command has read is lost to it. A failure of an agent whose own step makes the access is
found by that step. (DEDUCED, log entry 14) -/
def Block.accessFails (b : Block) (x : MemTag) (code : Nat) : Block :=
  let b := (b.merrCount 1).merrCapture x.req.write code x.chan x.req.line
  let b := if x.req.write && code ≠ 2 then (b.xwrite (64 * x.req.line) (freeBytes b 64)).used else b
  let mark := fun (b : Block) => b.setFk fun k => { k with accounted := k.accounted ++ [(x.req.write, x.req.line)] }
  match x.req.agent with
  | .skidder _ id | .gather id =>
    (if x.req.write then b else b.lineRead id x.req.line none).failWho (.cmd id) (memStatus code)
  | .landing c => if x.req.write then b.deckFails c x.serial (memStatus code) else mark b
  | .rxPort r => if x.req.write then b.rxFails r (memStatus code) else mark b
  | .logStore => b.logFails (memStatus code)
  | .own _ => b
  | _ => mark b

/-- The write of OWN is over: HEAD advances by 1 (R390). -/
def Block.ownDone (b : Block) (n : Nat) (ok : Bool) : Block :=
  match (b.q n).started with
  | [] => b
  | v :: rest =>
    let b := if ok then b.xwrite (b.entryAddr n (b.sqHead n) + 7) [v &&& 0x7F] else b
    (b.wf (SQ_HEAD n) 0 12 ((b.sqHead n + 1) % b.sqEntries n)).setQ n fun x => { x with started := rest }

/-- What an acknowledge, good or bad for good, completes. -/
def Block.accessOver (b : Block) (x : MemTag) (ok : Bool) : Block :=
  match x.req.agent with
  | .own n => b.ownDone n ok
  | .landing c => b.guard x.req.write fun b => (b.guard ok (·.deckAcked c x.req.be)).flSettle
  | .rxPort _ => b.guard x.req.write Block.flSettle
  | _ => b

/-- A response to a tag in use: OK, a first ERROR or POISON that is retried once, or a failure for good (R63). `good` is
what an OK response does. -/
def Block.respond (b : Block) (x : MemTag) (code : Nat) (good : Block → Block) : Block :=
  if code = 0 then (good b).accessOver x true
  else if code = 2 ∨ x.retry then (b.accessFails x code).accessOver x false
  else (b.merrCount 1).setFk fun k => { k with retries := k.retries ++ [{ req := x.req, serial := x.serial }] }

/-- A response transfers: its tag is free again; in entry to reset it is discarded (Table 2.7), and an ERROR, POISON or
NO_TARGET response discarded so is not counted in GLB_MERR.COUNT. (DEDUCED, log entry 15) (DESIGN CHOICE, log entry 78) -/
def Block.response (b : Block) (write : Bool) (chan tag code : Nat) (good : MemTag → Block → Block) : Block :=
  b.guard b.memRuns fun b => match SMap.find (b.tags write) tag with
    | none => b.spurious
    | some x =>
      let b := b.dropTag write tag
      if b.ao.phase ≠ .entering then (b.tally (if write then 0x02 else 0x01) chan none 64).respond x (code % 4) (good x) else b

/-- The line that a command asked for is there. -/
def Block.lineCame (b : Block) (x : MemTag) (data : BitVec 512) : Block :=
  match x.req.agent with
  | .skidder _ id | .gather id => b.lineRead id x.req.line (some data)
  | _ => b

/-- MEM_READ_RESPONSE (R60, R62, R63): the line's bytes are what the memory side holds. (DESIGN CHOICE, log entry 7) -/
def execMemReadResponse (chan tag code : Nat) (data : BitVec 512) (s : State) : Host.Outcome State Fault Refusal :=
  s.upd fun b => b.response false chan tag code fun x b =>
    (b.xwrite (64 * x.req.line) (leBytes 64 data.toNat)).lineCame x data

/-- A write that an agent owed has reached memory, its enabled bytes alone (R61). (DESIGN CHOICE, log entry 7) -/
def Block.writeCame (b : Block) (x : MemTag) : Block :=
  match x.req.agent with
  | .skidder .. | .gather _ | .landing _ | .rxPort _ => b.putLine x.req
  | _ => b

/-- MEM_WRITE_ACK (R60, R62, R63). (DESIGN CHOICE, log entry 7) -/
def execMemWriteAck (chan tag code : Nat) (s : State) : Host.Outcome State Fault Refusal :=
  s.upd fun b => b.response true chan tag code fun x b => b.writeCame x

end Sys2Proof.Machine
end

