-- ==== Sys2Proof/Machine/Interrupts.lean ====
section
/-! DEFINITION. Host writes to the interrupt tree (R404, R405): clearing causes and setting them for a test. -/

namespace Sys2Proof.Machine

/-- Completions written since a ring's cause bit was last cleared start again for the rings in a mask (R399). -/
def Block.ringsCleared (b : Block) (mask : Word) : Block :=
  b.each ((List.range 16).filter fun r => bit mask r) fun b r => b.setRing r fun x => { x with since := 0 }

/-- A write to INT_CAUSE (R405). -/
def Block.causeClear (b : Block) (n : Nat) (data : Word) : Block :=
  let b := if n = 0 then b.ringsCleared (b.reg (INT_CAUSE 0) &&& data) else b
  b.writeReg (INT_CAUSE n) data

/-- A write to INT_TEST (R405): bits that Table 14.11 does not list are reserved. -/
def Block.causeTest (b : Block) (n : Nat) (data : Word) : Block :=
  b.setReg (INT_CAUSE n) (b.reg (INT_CAUSE n) ||| (data &&& causeMask n))

/-- INT_CAUSE_CLEAR (R405). -/
def execIntCauseClear (n : Nat) (data : Word) (s : State) : Host.Outcome State Fault Refusal :=
  s.upd fun b => b.guard (n < 9) fun b => b.portWrite (INT_CAUSE n) data (·.causeClear n data)
/-- INT_TEST (R405). -/
def execIntTest (n : Nat) (data : Word) (s : State) : Host.Outcome State Fault Refusal :=
  s.upd fun b => b.guard (n < 9) fun b => b.portWrite (INT_TEST n) data (·.causeTest n data)

end Sys2Proof.Machine
end

