-- ==== Sys2Proof/Machine/Timebase.lean ====
section
/-! DEFINITION. The timebase and the trigger outputs (R47, R70 to R72). -/

namespace Sys2Proof.Machine

/-! Triggers. -/

def trigNew (_ : Nat) : Trig := { level := false, target := none, width := 0, armed := false }
def Block.trig (b : Block) (k : Nat) : Trig := SMap.get trigNew b.fk.trig k
def Block.setTrig (b : Block) (k : Nat) (t : Trig) : Block :=
  b.setFk fun f => { f with trig := SMap.set trigNew f.trig k t }

def Block.trigOn (b : Block) (k : Nat) : Bool := b.rb (CAM_TRIG_CTRL k) 0
def Block.trigPeriod (b : Block) (k : Nat) : Nat := (b.reg (CAM_TRIG_PERIOD k)).toNat

/-- The smallest target greater than the time `now` (R71, R72): a time congruent to PHASE modulo PERIOD. -/
def nextTarget (period phase now : Nat) : Nat :=
  now + 1 + (phase % period + period - (now + 1) % period) % period

/-- The next target, where the trigger has one (R44, R72, Table 2.20). -/
def Block.trigTarget (b : Block) (k : Nat) : Option Nat :=
  if b.trigOn k && b.trigPeriod k ≠ 0 && b.ao.straps.tb then
    some (nextTarget (b.trigPeriod k) (b.reg (CAM_TRIG_PHASE k)).toNat b.now)
  else none

/-- The output is low and waits for its next target. -/
def Block.trigLow (b : Block) (k : Nat) : Block :=
  b.setTrig k { level := false, target := b.trigTarget k, width := 0, armed := false }

/-- The width of a pulse (R71). -/
def Block.trigWidth (b : Block) (k : Nat) : Nat :=
  let w := (b.reg (CAM_TRIG_WIDTH k)).toNat
  if b.trigPeriod k ≤ w then b.trigPeriod k - 1 else w

/-- The timebase has reached the scheduled target (R71). (DEDUCED, log entry 12) -/
def Block.trigDue (b : Block) (k : Nat) : Bool :=
  !(b.trig k).level && b.trigOn k && match (b.trig k).target with
    | some t => t ≤ b.now
    | none => false

/-- The pulse has had its width, at an edge after its rise (R71). (DEDUCED, log entry 12) -/
def Block.trigOver (b : Block) (k : Nat) : Bool :=
  (b.trig k).level && (b.trig k).armed && match (b.trig k).target with
    | some t => t + (b.trig k).width ≤ b.now
    | none => true

/-- TRIGGER_RISE (R71). -/
def execTriggerRise (k : Nat) (s : State) : Host.Outcome State Fault Refusal :=
  s.upd fun b => b.whenLive fun b => b.guard (k < 12 && b.trigDue k) fun b =>
    b.setTrig k { b.trig k with level := true, width := b.trigWidth k, armed := false }
/-- TRIGGER_FALL (R71, R72). -/
def execTriggerFall (k : Nat) (s : State) : Host.Outcome State Fault Refusal :=
  s.upd fun b => b.whenLive fun b => b.guard (k < 12 && b.trigOver k) (·.trigLow k)

/-- The offset is a trigger register. -/
def isTrigReg (o : Nat) : Bool := 0x1F000 ≤ o && o < 0x1F0C0

/-- A write to a trigger register (R72): EN set from 0, and PERIOD or PHASE, schedule the next target where the output is
low; a pulse keeps its width. (DEDUCED, log entry 12) -/
def Block.trigWrite (b : Block) (o : Nat) (data : Word) : Block :=
  let k := (o - 0x1F000) / 0x10
  let was := b.trigOn k
  let b := b.writeReg o data
  b.guard (!(b.trig k).level && (if o = CAM_TRIG_CTRL k then was ≠ b.trigOn k else o ≠ CAM_TRIG_WIDTH k)) (·.trigLow k)

/-- CAM_TRIG_WRITE (R72). -/
def execCamTrigWrite (off : BitVec 20) (data : Word) (s : State) : Host.Outcome State Fault Refusal :=
  s.upd fun b => b.guard (isTrigReg off.toNat) fun b => b.portWrite off.toNat data (·.trigWrite off.toNat data)

/-! Samples. -/

/-- Samples are taken: the timebase is present and the block domain is out of reset (R44, R453). -/
def Block.sampling (b : Block) : Bool :=
  b.pins.vddAo && b.pins.coldN && b.ao.straps.tb && (b.ao.phase == .selfTest || b.ao.phase == .ready)

/-- An advance that is negative or greater than 1,000 ns (R70). -/
def discontinuous (old new : Nat) : Bool := new < old || old + 1000 < new

/-- GLB_TB_NOW takes a sample. -/
def Block.storeNow (b : Block) (now : Dword) : Block :=
  ((b.setReg GLB_TB_NOW_LO (now.setWidth 32)).setReg GLB_TB_NOW_HI ((now >>> 32).setWidth 32)).setAo fun a =>
    { a with sampled := true }

/-- What a discontinuity does beside the ages (R70, R87, R445): pulses end and targets passed over are skipped, and the
windows in progress are discarded. -/
def Block.tbStep (b : Block) : Block :=
  let b := (b.wf GLB_STATUS 5 1 1).causeIntake 0
  let b := b.setAo fun a => { a with paceSkip := true }
  let b := b.guard (b.rb TLY_WIN 30) (·.setFk fun k => { k with window := [] })
  b.each (List.range 12) Block.trigLow

/-- A pulse has seen an edge after its rise. -/
def Block.trigEdge (b : Block) (k : Nat) : Block := b.guard (b.trig k).level fun b => b.setTrig k { b.trig k with armed := true }

/-- One sample of the timebase (R70). (DEDUCED, log entry 12) -/
def Block.tbSample (b : Block) (now : Dword) : Block :=
  b.guard b.sampling fun b =>
    let step := b.ao.sampled && discontinuous b.now now.toNat
    let b := b.storeNow now
    let b := if step then b.tbStep else b.each (List.range 12) Block.trigEdge
    b.whenLive (·.each (List.range 48) Block.staleCheck)

/-- TIMEBASE_SAMPLE (R70, R453). -/
def execTimebaseSample (now : Dword) (s : State) : Host.Outcome State Fault Refusal := s.upd fun b => b.tbSample now
/-- TB_CLK_RESTART (R47): the first sample after the stop. -/
def execTbClkRestart (now : Dword) (s : State) : Host.Outcome State Fault Refusal := s.upd fun b => b.tbSample now

end Sys2Proof.Machine
end

