-- ==== Sys2Proof/Machine/Bypass.lean ====
section
/-! DEFINITION. The flume bypass (R75 to R78, Table 2.23). -/

namespace Sys2Proof.Machine

/-- The most pressing condition of R76 that holds, as CAUSE codes it; 0 where none does.
(DESIGN CHOICE, log entry 13) -/
def Block.bypassCause (b : Block) : Nat :=
  if !b.pins.pwrok then 2
  else if !b.pins.coldN || b.inReset || b.movementReset || !(b.ao.straps.fe && b.ao.straps.fw) then 1
  else if b.rb GLB_BYP 30 then 3
  else 0

/-- A link's STATE changes with the bypass, which the flume port reports while it runs (Tables 13.6 and 14.11). R78 lets the
switch cut packets that pass: the model cuts none that the port holds, and its input buffers and replay copies go on when
the link trains again. (DESIGN CHOICE, log entry 79) -/
def Block.linkCut (b : Block) (d : Nat) : Block :=
  b.guard (b.linkThere d) fun b =>
    (b.setLink d fun l => { l with trained := false, training := false, failed := false }).dropAborts d |>.guard b.live (·.causeFlume 17)

/-- The bypass closes. (DESIGN CHOICE, log entry 13) -/
def Block.closeBypass (b : Block) : Block :=
  b.guard (!b.bypassed) fun b => (((b.wf GLB_BYP 31 1 1).satAdd GLB_BYP 0 16 1).each [0, 1] Block.linkCut).disableDone

/-- The bypass closes at once where `fk_fclk` runs; while it is stopped the switch waits for BYPASS_CLOSE (R47, R76).
(DESIGN CHOICE, log entry 13) (DEDUCED, log entry 11) -/
def Block.closeNow (b : Block) : Block := b.guard b.pins.fclkOn Block.closeBypass

/-- The bypass opens, and both links retrain (R363, R378). (DESIGN CHOICE, log entry 13) -/
def Block.openBypass (b : Block) : Block := ((b.wf GLB_BYP 31 1 0).retrain 0).retrain 1

/-- BYPASS_CLOSE (R76). -/
def execBypassClose (s : State) : Host.Outcome State Fault Refusal :=
  s.upd fun b => b.guard (b.pins.vddAo && b.pins.fclkOn && b.bypassCause ≠ 0) Block.closeBypass
/-- BYPASS_OPEN (R76). -/
def execBypassOpen (s : State) : Host.Outcome State Fault Refusal :=
  s.upd fun b => b.guard (b.pins.vddAo && b.pins.fclkOn && b.bypassed && b.bypassCause == 0) Block.openBypass

/-- A write to GLB_BYP (R76). (DEDUCED, log entry 74) -/
def Block.bypWrite (b : Block) (data : Word) : Block :=
  b.guard (bit data 30 || !b.inReset) (·.wf GLB_BYP 30 1 (bits data 30 1))

/-- GLB_BYP_WRITE (R76). -/
def execGlbBypWrite (data : Word) (s : State) : Host.Outcome State Fault Refusal :=
  s.upd fun b => b.portWrite GLB_BYP data (·.bypWrite data)

end Sys2Proof.Machine
end

