-- ==== Sys2Proof/Machine/Pace.lean ====
section
/-! DEFINITION. The pace monitors (R80, R86 to R89). -/

namespace Sys2Proof.Machine

/-! Windows (R86). -/

def Block.paceOn (b : Block) : Bool := b.rb PACE_CTRL 31
def Block.paceWin (b : Block) : Nat := Nat.max 1 (b.rf PACE_CTRL 16 8)

/-- The next window begins: an island is marked as it stands now. -/
def Block.paceBegin (b : Block) : Block :=
  (b.each (List.range islandCount) fun b i => b.wf (PACE i) 30 1 (b2n (b.islandOff i))).markOff

/-- The islands for which a window is complete: on now, and at every moment of the window. -/
def Block.paceWhole (b : Block) : List Nat :=
  (List.range islandCount).filter fun i => !b.islandOff i && !b.rb (PACE i) 30

/-- The rate of an island over the window (R86). (DEDUCED, log entry 6) -/
def Block.paceRate (b : Block) (beats : List (Nat × Nat)) (i : Nat) : Nat :=
  min ((SMap.find beats i).getD 0 / b.paceWin) 0xFFF

/-- NOW and MIN of an island. (DEDUCED, log entry 18) -/
def Block.paceSet (b : Block) (i now : Nat) : Block :=
  b.setReg (PACE i) (BitVec.ofNat 32 (2 ^ 31 + min now (b.rf (PACE i) 16 12) * 2 ^ 16 + now))

/-- The slowest of islands, the lower number on a tie (R89). -/
def slowest : List (Nat × Nat) → Option (Nat × Nat)
  | [] => none
  | x :: xs => match slowest xs with
    | some y => if y.2 < x.2 then some y else some x
    | none => some x

/-- PACE_SLOW and the floor (R88, R89) after a window with these rates of the islands on VDD_FK. -/
def Block.paceCheck (b : Block) (rates : List (Nat × Nat)) : Block :=
  match slowest rates with
  | none => b
  | some x =>
    let b := (b.wf PACE_SLOW 12 8 x.1).wf PACE_SLOW 0 12 x.2
    if b.rb PACE_FLOOR 31 && x.2 < b.rf PACE_FLOOR 0 12 then (b.wf PACE_SLOW 31 1 1).causeControl 20 else b

/-- A window ends; `beats` lists the beats of each island. (DEDUCED, log entry 18) -/
def Block.paceEnd (b : Block) (beats : List (Nat × Nat)) : Block :=
  b.guard (b.pins.vddAo && b.pins.coldN && b.paceOn && (!b.rb PACE_CTRL 29 || b.ao.straps.tb)) fun b =>
    if b.ao.paceSkip then (b.setAo fun a => { a with paceSkip := false }).paceBegin
    else
      let rates := b.paceWhole.map fun i => (i, b.paceRate beats i)
      let b := b.each rates fun b x => b.paceSet x.1 x.2
      (b.paceCheck (rates.filter fun x => x.1 < 243)).paceBegin

/-- PACE_WINDOW_END (R86 to R89). -/
def execPaceWindowEnd (beats : List (Nat × Nat)) (s : State) : Host.Outcome State Fault Refusal :=
  s.upd fun b => b.paceEnd beats

/-- A write to PACE_CTRL (R86, R87): EN set from 0 begins a window; a change of REF or WIN_US loses the one in progress.
(DEDUCED, log entry 18) -/
def Block.paceCtrlWrite (b : Block) (data : Word) : Block :=
  let b := if bit data 30 then b.each (List.range islandCount) fun b i => b.wf (PACE i) 16 12 0xFFF else b
  let old := b.reg PACE_CTRL
  let b := b.writeReg PACE_CTRL data
  if !bit data 31 then b
  else if !bit old 31 then (b.setAo fun a => { a with paceSkip := false }).paceBegin
  else if b.reg PACE_CTRL ≠ old then b.setAo fun a => { a with paceSkip := true }
  else b

/-- PACE_CLR_MIN (R86): a write with CLR_MIN. -/
def execPaceClrMin (data : Word) (s : State) : Host.Outcome State Fault Refusal :=
  s.upd fun b => b.guard (bit data 30) fun b => b.portWrite PACE_CTRL data (·.paceCtrlWrite data)

end Sys2Proof.Machine
end

