-- ==== Sys2Proof/Machine/Counters.lean ====
section
/-! DEFINITION. Host writes to the tally and the bandwidth windows (16.1 to 16.5). -/

namespace Sys2Proof.Machine

/-- TLY_STAT.CFG_ERR. -/
def Block.tallyErr (b : Block) : Block := b.wf TLY_STAT 31 1 1

/-- The checks of R438 on a TLY_CFG word. (DEDUCED, log entry 72) -/
def tallyCfgOk (i : Nat) (w : Word) : Bool :=
  let ev := bits w 0 8
  let fit := if ev = 0 then bits w 16 6 == 0 && !bit w 29
    else match tallyEvent ev with
      | some e => tallyIndexOk e (bits w 16 6) && (!bit w 29 || e.filter)
      | none => false
  fit && (!bit w 30 || (i % 2 == 1 && ev == 0 && bits w 16 6 == 0 && !bit w 29 && bits w 22 6 == 0))

/-- A write to TLY_CFG (R438). -/
def Block.tallyCfg (b : Block) (i : Nat) (data : Word) : Block :=
  if b.rb (TLY_CFG i) 31 then b.wf (TLY_CFG i) 31 1 (bits data 31 1)
  else if tallyCfgOk i data then b.writeReg (TLY_CFG i) data
  else b.tallyErr

/-- TLY_CFG_WRITE (R438). -/
def execTlyCfgWrite (i : Nat) (data : Word) (s : State) : Host.Outcome State Fault Refusal :=
  s.upd fun b => b.guard (i < 256) fun b => b.portWrite (TLY_CFG i) data (·.tallyCfg i data)

/-- The count may be written (Table 16.2). -/
def Block.tallyWritable (b : Block) (i : Nat) : Bool := !b.rb (TLY_CFG i) 31 && !b.rb (TLY_CFG i) 30

/-- A write of COUNT_LO is staged (R15). -/
def Block.tallyLo (b : Block) (i : Nat) (data : Word) : Block :=
  if b.tallyWritable i then b.stageLo (TLY_CNT_LO i) data else b.tallyErr

/-- A write of COUNT_HI commits the count (R15). (DEDUCED, log entry 72) -/
def Block.tallyHi (b : Block) (i : Nat) (data : Word) : Block :=
  if b.tallyWritable i then
    let lo := match SMap.find b.fk.stage (TLY_CNT_LO i) with
      | some v => v.toNat
      | none => b.tallyCount i % 2 ^ 32
    (b.setTally i (lo + 2 ^ 32 * bits data 0 16)).setFk fun k => { k with stage := SMap.erase k.stage (TLY_CNT_LO i) }
  else b.tallyErr

/-- Every count is 0 and every TLY_WRAP bit clear (R442). -/
def Block.tallyClear (b : Block) : Block :=
  (b.setFk fun k => { k with tally := [] }).each (List.range 8) fun b j => b.setReg (TLY_WRAP j) 0

/-- A write to TLY_CTRL (R442). -/
def Block.tallyCtrl (b : Block) (data : Word) : Block :=
  (b.writeReg TLY_CTRL data).guard (bit data 30) Block.tallyClear

/-- TLY_FREEZE_WRITE (R442). -/
def execTlyFreezeWrite (data : Word) (s : State) : Host.Outcome State Fault Refusal :=
  s.upd fun b => b.portWrite TLY_CTRL data (·.tallyCtrl data)
/-- TLY_CLR_ALL (R442): a write with CLR_ALL. -/
def execTlyClrAll (data : Word) (s : State) : Host.Outcome State Fault Refusal :=
  s.upd fun b => b.guard (bit data 30) fun b => b.portWrite TLY_CTRL data (·.tallyCtrl data)

/-- A write to TLY_WIN (R445): the window in progress is discarded; CLR_PEAK clears every PEAK. -/
def Block.tallyWin (b : Block) (data : Word) : Block :=
  let b := (b.writeReg TLY_WIN data).setFk fun k => { k with window := [] }
  b.guard (bit data 29) (·.each (List.range 15) fun b p => b.setReg (TLY_BW_PEAK p) 0)

/-- TLY_WIN_WRITE (R445). -/
def execTlyWinWrite (data : Word) (s : State) : Host.Outcome State Fault Refusal :=
  s.upd fun b => b.portWrite TLY_WIN data (·.tallyWin data)
/-- TLY_CLR_PEAK (R445): a write with CLR_PEAK. -/
def execTlyClrPeak (data : Word) (s : State) : Host.Outcome State Fault Refusal :=
  s.upd fun b => b.guard (bit data 29) fun b => b.portWrite TLY_WIN data (·.tallyWin data)

/-- RATE and PEAK of a port at the end of a window (R446). -/
def Block.tallyRate (b : Block) (p : Nat) : Block :=
  let rate := SMap.get zeroNat b.fk.window p / Nat.max 1 (b.rf TLY_WIN 0 16)
  (b.setReg (TLY_BW_RATE p) (BitVec.ofNat 32 rate)).setReg (TLY_BW_PEAK p)
    (BitVec.ofNat 32 (max rate (b.reg (TLY_BW_PEAK p)).toNat))

/-- A bandwidth window ends (R445, R446). (DEDUCED, log entry 72) -/
def Block.tallyWinEnd (b : Block) : Block :=
  b.guard (b.rb TLY_WIN 31 && (!b.rb TLY_WIN 30 || b.ao.straps.tb)) fun b =>
    ((b.each (List.range 15) Block.tallyRate).setFk fun k => { k with window := [] }).causeTally 1

/-- TLY_WINDOW_END (R446). -/
def execTlyWindowEnd (s : State) : Host.Outcome State Fault Refusal :=
  s.upd fun b => b.whenLive Block.tallyWinEnd

end Sys2Proof.Machine
end

