-- ==== Sys2Proof/Machine/Resets.lean ====
section
/-! DEFINITION. Resets smaller than the block and the entry into block-domain reset (R414 to R422, Table 2.7): what they end, what they clear, and how they end. -/

namespace Sys2Proof.Machine

/-! Spare state (Tables 1.4 and 1.10). -/

def Block.spareMode (b : Block) : Nat := b.rf SPR_INVENTORY 30 2
def Block.donorLeft (b : Block) : Nat := b.rf SPR_INVENTORY 26 4

/-- Units of a logical stand that are brought in new have no faults behind them. -/
def Block.newUnits (b : Block) (u : Nat) : Block :=
  b.setAo fun a => { a with lasting := SMap.keep a.lasting fun v _ => !domainHas u v
                            out := SMap.keep a.out fun v _ => !domainHas u v }

/-- Logical stand `s` maps to physical stand 8 (R34, Table 15.7 step 4). (DEDUCED, log entry 69) -/
def Block.mapSpare (b : Block) (s : Nat) : Block :=
  let b := ((b.wf SPR_STAND_MAP (4 * s) 4 8).wf SPR_INVENTORY 30 2 1).wf SPR_INVENTORY 26 4 0
  (b.newUnits (unitId 0x1 s)).markOff.causeFault 2

/-- What ends with a domain reset that another takes over: a substitution keeps its remap (R417).
(DEDUCED, log entry 68) -/
def Block.takenOver (b : Block) (r : DomainReset) : Block := b.guard r.subst (·.mapSpare (unitIdx r.unit))

/-! What a reset ends (R415). -/

/-- The unit of a command (Table 15.3). -/
def Cmd.unitNo (c : Cmd) : Nat :=
  match c.unit with
  | .engine e => unitId 0x2 e
  | .skidder k => unitId 0x6 k
  | .gather => unitId 0x6 16
  | .take s => unitId 0x5 (s / 4)
  | .session _ => unitId 0x5 33
  | .records _ => unitId 0x5 34
  | .openAny => unitId 0x5 (33 + cdUnit c.pb)
  | .logStore => unitId 0x5 48
  | .landing _ => unitId 0x6 20

/-- A LOGRD has a page read in progress on a channel. -/
def Block.readsOn (b : Block) (ch id : Nat) : Bool :=
  b.fk.ls.ops.any fun o => o.2.kind == 3 && o.2.cmd == id && tgChan o.2.target == ch

/-- A command has an access in flight in a memory channel. -/
def Block.accessOn (b : Block) (ch id : Nat) : Bool :=
  let mine := fun (t : MemTag) => t.chan == ch && t.req.agent.ofCmd id
  b.fk.rdTags.any (fun e => mine e.2) || b.fk.wrTags.any fun e => mine e.2

/-- A command is queued or in progress in a unit of the domain of `u` (R283, R415). (DEDUCED, log entry 67) -/
def Block.cmdIn? (b : Block) (u : Nat) (id : Nat) (c : Cmd) : Bool :=
  if u = unitId 0x5 33 then c.op == .codec
  else if unitClass u = 0x5 ∧ 40 ≤ unitIdx u ∧ unitIdx u < 48 then b.readsOn (unitIdx u - 40) id
  else if u = unitId 0x6 17 then c.need.isSome && c.phase == .accepted
  else if unitClass u = 0x6 ∧ 20 ≤ unitIdx u ∧ unitIdx u < 24 then c.isSlot
  else if unitClass u = 0x6 ∧ 24 ≤ unitIdx u ∧ unitIdx u < 28 then b.accessOn (unitIdx u - 24) id
  else domainHas u c.unitNo

/-- End the commands of a domain. -/
def Block.cutIn (b : Block) (u : Nat) : Block :=
  b.each (b.fk.cmds.filter fun e => b.cmdIn? u e.1 e.2) fun b e => match b.findCmd e.1 with
    | some c => b.cutCmd e.1 c stReset
    | none => b

/-- End the jobs that a domain's reset reaches. -/
def Block.endJobsIn (b : Block) (u : Nat) : Block :=
  b.each (b.fk.threads.filter fun e => domainHas u (unitId 0x4 e.1)) fun b e => b.endJob e.2.job stReset

/-- The accumulator banks of a domain's engines are empty and have no owner (R197). -/
def Block.clearBanks (b : Block) (u : Nat) : Block :=
  b.setFk fun k => { k with banks := SMap.keep k.banks fun i _ => !domainHas u (unitId 0x2 (i / 4)) }

/-- The registers in a range of offsets return to their reset values. -/
def Block.clearRegs (b : Block) (lo hi : Nat) : Block :=
  b.setFk fun k => { k with regs := SMap.keep k.regs fun o _ => o < lo || hi ≤ o
                            stage := SMap.keep k.stage fun o _ => o < lo || hi ≤ o }

/-- A lane gives up its line. -/
def Block.laneFree (b : Block) (lane : Nat) : Block :=
  match b.lineOn lane with
  | some x => b.modLine x fun l => { l with onLane := none }
  | none => b

/-- The camera intake after an Intake reset (R278): its frames are gone and their buffers returned. -/
def Block.clearCamera (b : Block) : Block :=
  let bufs := b.fk.cam.flatMap fun e => e.2.frames.flatMap fun f => f.bufs
  let b := b.setFk fun k => { k with cam := [], fe := Fk.reset.fe }
  ((b.clearRegs 0x10000 0x1F000).tidyWaiters).giveBack bufs

/-- The codec after an Intake reset: every session and record stream is closed (R283, R304). -/
def Block.clearCodec (b : Block) : Block :=
  let b := b.each (b.fk.codec.sessions.map fun e => e.1) Block.closeSession
  let b := b.each (b.fk.codec.records.map fun e => e.1) Block.closeRecords
  (b.setFk fun k => { k with codec := Fk.reset.codec }).clearRegs 0x20000 0x30000

/-- The log store after an Intake reset or when its operations have had their time (R326). (DEDUCED, log entry 67) -/
def Block.clearLog (b : Block) : Block :=
  (b.lsLost.setFk fun k => { k with ls := LogStore.reset }).clearRegs 0x30000 0x38000

/-- The parts of Movement that a Movement reset clears (R345, R379, R416): deck channels, the flume port, the translation
cache and the walks; suspended transfers have ended. (DEDUCED, log entry 56) (DEDUCED, log entry 67) -/
def Block.clearMovement (b : Block) : Block :=
  let b := b.setFk fun k => { k with decks := [], flume := Flume.reset, owed := [], waits := []
                                     retries := k.retries.filter fun x => match x.req.agent with
                                       | .walk | .fetch _ | .own _ | .ring _ | .faultRing | .logStore => true
                                       | _ => false }
  let b := b.setXl fun t => { t with cache := [], inval := none, fids := [], holding := [] }
  (b.clearRegs 0xA000 0xB000).clearRegs 0x38000 0x3C000

/-- What a reset of a domain smaller than the block does beside ending jobs and commands. (DEDUCED, log entry 67) -/
def Block.clearDomain (b : Block) (u : Nat) : Block :=
  if u = intakeUnit then b.clearCamera.clearCodec
  else if u = movementUnit then b.clearMovement.closeNow
  else if unitClass u = 0x5 ∧ 16 ≤ unitIdx u ∧ unitIdx u ≤ 24 then b.laneFree (unitIdx u - 16)
  else if u = unitId 0x6 28 then b.retrain 0
  else if u = unitId 0x6 29 then b.retrain 1
  else b

/-! Domain resets (R414 to R421). -/

/-- The report of a domain reset to the ring (R420). -/
def Block.nodeReport (b : Block) (kind : Nat) (r : DomainReset) : Block :=
  b.guard (r.unit ≠ movementUnit) (·.flEvent kind b.flNode ((if r.lastingFault then stLasting else stTransient) + r.domain * 2 ^ 8))

/-- A reset begins; `quiet` says that its operations are issued again and end as though no fault had occurred (R415). A
reset inside one in progress is absorbed, and a smaller one in progress is taken over (R417). -/
def Block.beginReset (b : Block) (r : DomainReset) (quiet : Bool) : Block :=
  if b.underReset r.unit then b
  else
    let inner := b.ao.rst.filter fun x => domainHas r.unit x.unit
    let b := b.each inner Block.takenOver
    let b := b.nodeReport 5 r
    let b := b.setAo fun a => { a with rst := (a.rst.filter fun x => !domainHas r.unit x.unit) ++ [r] }
    let b := (b.wf RST_STAT 28 3 r.domain).wf RST_STAT 0 16 r.unit
    let b := if quiet then b else (((b.endJobsIn r.unit).cutIn r.unit).clearBanks r.unit).clearDomain r.unit
    b.markOff

/-- A domain reset may end: a Movement reset waits for every tag to return (R416), and a NAND operation in progress delays a
reset of its channel or of Intake, up to 10 ms (Table 15.5). -/
def Block.resetOver (b : Block) (us : Nat) (r : DomainReset) : Bool :=
  if r.unit = movementUnit then b.fk.rdTags.isEmpty && b.fk.wrTags.isEmpty
  else 10000 ≤ us || !(b.fk.ls.ops.any fun o => domainHas r.unit (unitId 0x5 (40 + tgChan o.2.target)))

/-- A domain reset ends: the fence lifts (R419, R420, Table 15.7). (DEDUCED, log entry 6) -/
def Block.endReset (b : Block) (us : Nat) (r : DomainReset) : Block :=
  let b := b.guard r.subst (·.mapSpare (unitIdx r.unit))
  let b := b.guard (r.unit == intakeUnit) Block.clearLog
  let b := b.setAo fun a => { a with rst := a.rst.erase r }
  let b := (b.setReg RST_TIME (BitVec.ofNat 32 (min us 0xFFFF))).causeFault 4
  b.nodeReport 6 r

/-- DOMAIN_RESET_END (R419): the oldest reset that may end; `us` is its duration. -/
def execDomainResetEnd (us : Nat) (s : State) : Host.Outcome State Fault Refusal :=
  s.upd fun b => b.whenLive fun b => match b.ao.rst.find? (b.resetOver us) with
    | some r => b.endReset us r
    | none => b

/-! Entry into block-domain reset (R52, R54, Table 2.7). -/

/-- Steps 1 and 2: DOMAIN_RST is 1, FORCE is set, the triggers fall and the ports stop. Resets in progress are absorbed. -/
def Block.enterReset (b : Block) : Block :=
  b.guard (!b.inReset) fun b =>
    let b := b.each b.ao.rst Block.takenOver
    let b := b.setAo fun a => { a with phase := .entering, nandWaitOver := false, rst := [] }
    ((b.wf GLB_BYP 30 1 1).setFk fun k => { k with trig := [], entered := [] }).markOff

/-- Control applies a block reset (R52). (DEDUCED, log entry 68) -/
def Block.controlBlock (b : Block) : Block :=
  b.guard (!b.inReset) fun b =>
    let b := (b.wf RST_STAT 28 3 5).wf RST_STAT 0 16 blockUnit
    (b.setAo fun a => { a with controlReset := true }).enterReset

/-- Step 5: the state of every VDD_FK unit is reset; an operation of the NAND devices that is still in progress is cut off
from its tables. (DEDUCED, log entry 17) -/
def Block.domainLost (b : Block) : Block :=
  let b := b.lsLost
  ((b.setFk fun _ => Fk.reset).setAo fun a => { a with phase := .held })

/-! Requests of software (R418). -/

/-- A domain reset is in progress (RST_STAT.BUSY). -/
def Block.rstBusy (b : Block) : Bool := b.ao.controlReset || !b.ao.rst.isEmpty

/-- A unit is in service: neither it nor a unit that contains it is out. -/
def Block.inService (b : Block) (u : Nat) : Bool :=
  let i := unitIdx u
  !b.isOut u && match unitClass u with
    | 0x1 => b.standIn i
    | 0x2 => b.engineIn i
    | 0x3 => b.coreIn i
    | 0x4 => b.coreIn (coreOf i)
    | 0x5 => !(16 ≤ i && i ≤ 24) || b.laneIn (i - 16)
    | _ => true

/-- A request that is not refused. (DEDUCED, log entry 68) -/
def Block.rstOk (b : Block) (d u : Nat) : Bool := d == 5 || (1 ≤ d && d ≤ 4 && domainOf u == d && b.inService u)

/-- A request. In block-domain reset, and in self-test for a smaller domain, it is absorbed (R417).
(DEDUCED, log entry 68) -/
def Block.rstRequest (b : Block) (d u : Nat) : Block :=
  if b.rstOk d u then
    let b := b.wf RST_STAT 16 8 stDone
    if d = 5 then b.controlBlock
    else if b.live then b.beginReset { domain := d, unit := u, subst := false, lastingFault := false } false
    else b
  else (b.wf RST_STAT 16 8 stMalformed).wf RST_STAT 0 16 u

/-- A write to RST_CTRL (R418). -/
def Block.rstWrite (b : Block) (data : Word) : Block :=
  b.guard (!b.rstBusy) fun b =>
    let b := b.writeReg RST_CTRL data
    b.guard (bit data 31) (·.rstRequest (bits data 28 3) (bits data 0 16))

/-- A write to RST_CTRL that requests a reset of domain `d`. -/
def rstRow (d : Nat) (data : Word) (b : Block) : Block :=
  b.guard (bit data 31 && bits data 28 3 == d) fun b => b.portWrite RST_CTRL data (·.rstWrite data)

/-- RST_THREAD (R418). -/
def execRstThread (data : Word) (s : State) : Host.Outcome State Fault Refusal := s.upd (rstRow 1 data)
/-- RST_ENGINE (R418). -/
def execRstEngine (data : Word) (s : State) : Host.Outcome State Fault Refusal := s.upd (rstRow 2 data)
/-- RST_STAND (R418). -/
def execRstStand (data : Word) (s : State) : Host.Outcome State Fault Refusal := s.upd (rstRow 3 data)
/-- RST_SUBSYSTEM (R418). -/
def execRstSubsystem (data : Word) (s : State) : Host.Outcome State Fault Refusal := s.upd (rstRow 4 data)
/-- RST_BLOCK (R418). -/
def execRstBlock (data : Word) (s : State) : Host.Outcome State Fault Refusal := s.upd (rstRow 5 data)

end Sys2Proof.Machine
end

