-- ==== Sys2Proof/Machine/Faults.lean ====
section
/-! DEFINITION. Hardware faults (15.1, 15.4, Tables 1.9 and 15.1): the log, the action of a lasting fault in each kind of unit, SRAM repair and fences, and ledger breaches. -/

namespace Sys2Proof.Machine

/-! What a unit that goes out gives up (R37, R422, R423). -/

/-- The buffer of a key shares a byte with [lo, hi) of a place. -/
def Block.bufMeets (b : Block) (place lo hi key : Nat) : Bool :=
  let base := b.boomBase (keyBoom key) + keyIndex key * boomSize (keyBoom key)
  keyPlace key == place && overlaps base (boomSize (keyBoom key)) lo (hi - lo)

/-- Admitted frames with a buffer in [lo, hi) of a place are lost (R422, R423). (DEDUCED, log entry 69) -/
def Block.loseFrames (b : Block) (place lo hi : Nat) : Block :=
  let hit := fun (f : Frame) => f.admitted && f.bufs.any (b.bufMeets place lo hi)
  b.each ((b.fk.cam.filter fun e => e.2.frames.any hit).map fun e => e.1) fun b s => b.modStr s fun x =>
    { x with entries := x.entries.map fun e => match e with
        | .frame f => if hit f then .frame { f with lost := true } else e
        | .drops _ _ _ => e }

/-- Pool entries with a buffer in [lo, hi) of a place become FREE (R422). (DEDUCED, log entry 69) -/
def Block.losePool (b : Block) (place lo hi : Nat) : Block :=
  let hit := b.bufMeets place lo hi
  b.setFk fun k => { k with codec := { k.codec with sessions := SMap.mapVals k.codec.sessions fun _ x =>
    { x with pool := x.pool.map fun e => if hit e.y || hit e.c || hit e.aux then { e with mark := .free } else e } } }

/-- FREE of each boom after a change that withdraws buffers (R343, R423). -/
def Block.withdrawing (b : Block) (f : Block → Block) : Block :=
  let old := (List.range 8).map b.boomFree
  (f b).each ((List.range 8).zip old) fun b e => b.boomChanged e.1 e.2

/-- A unit goes out of service (R411). -/
def Block.takeOut (b : Block) (u : Nat) : Block :=
  (b.setAo fun a => { a with out := SMap.set noneIn a.out u true }).markOff

/-- A lasting fault of a unit since cold reset. -/
def Block.countLasting (b : Block) (u : Nat) : Block :=
  b.setAo fun a => { a with lasting := SMap.set zeroNat a.lasting u (SMap.get zeroNat a.lasting u + 1) }

/-- Lasting faults of a unit since cold reset. -/
def Block.lastingOf (b : Block) (u : Nat) : Nat := SMap.get zeroNat b.ao.lasting u

/-- The frames of a stream go, those that wait to be taken too, and their buffers return. (DEDUCED, log entry 66) -/
def Block.dropStream (b : Block) (s : Nat) : Block :=
  let bufs := (b.str s).frames.flatMap fun f => f.bufs
  (b.modStr s fun x => { x with entries := [], dropping := none }).tidyWaiters.giveBack bufs

/-- A unit of Intake that is out holds no ledger resource (R37). (DEDUCED, log entry 66) -/
def Block.intakeGivesUp (b : Block) (i : Nat) : Block :=
  if i < 12 then b.each (portStreams i) Block.dropStream
  else if i = 33 then b.each (b.fk.codec.sessions.map fun e => e.1) Block.closeSession
  else if i = 34 then b.each (b.fk.codec.records.map fun e => e.1) Block.closeRecords
  else b

/-! Lasting faults by kind of unit (Table 15.1). -/

/-- A lasting fault enters the log and its reset begins. -/
def Block.faultReset (b : Block) (unit check detail domain resetUnit : Nat) (subst quiet : Bool) : Block :=
  (b.logLasting unit domain check detail).beginReset
    { domain := domain, unit := resetUnit, subst := subst, lastingFault := true } quiet

/-- The spare stand is unused and not claimed by a substitution in progress (R34). -/
def Block.spareFree (b : Block) : Bool := b.spareMode == 0 && !(b.ao.rst.any fun r => r.subst)

/-- A logical stand goes out of service: its frames and pool entries are lost, its buffers withdrawn (Table 1.9).
(DEDUCED, log entry 66) -/
def Block.standOut (b : Block) (s : Nat) : Block :=
  let b := b.withdrawing (·.wf SPR_STAND_MAP (4 * s) 4 0xF)
  ((b.loseFrames s 0 standBytes).losePool s 0 standBytes).markOff.causeFault 3

/-- A lasting fault that calls for a whole stand, in its scratchpad or interconnect (Table 1.9, R34). -/
def Block.wholeStand (b : Block) (s unit check detail : Nat) : Block :=
  if b.spareFree then b.faultReset unit check detail 3 (unitId 0x1 s) true false
  else ((b.standOut s).logLasting unit 3 check detail).beginReset
    { domain := 3, unit := unitId 0x1 s, subst := false, lastingFault := true } false

/-- A matrix engine (Table 1.9). -/
def Block.engineFault (b : Block) (e check : Nat) : Block :=
  let u := unitId 0x2 e
  if b.spareFree then b.faultReset u check 0 3 (unitId 0x1 (e / 4)) true false
  else ((b.takeOut u).causeFault 3).faultReset u check 0 2 u false false

/-- A donor takes the place of core `g` (R34, R35): it is new, and so are its thread slots. (DEDUCED, log entry 66) -/
def Block.donate (b : Block) (g : Nat) : Block :=
  let n := b.donorLeft
  let b := (b.wf SPR_INVENTORY 30 2 2).wf SPR_INVENTORY 26 4 (n - 1)
  let b := b.setAo fun a => { a with donors := SMap.put a.donors g (8 - n) }
  (b.newUnits (unitId 0x3 g)).markOff.causeFault 2

/-- A donor core is left: the spare stand is in donor mode, or unused and not claimed. -/
def Block.donorFree (b : Block) : Bool := 0 < b.donorLeft && (b.spareMode == 2 || b.spareFree)

/-- A tidy core (Table 1.9). -/
def Block.coreFault (b : Block) (g check : Nat) : Block :=
  let u := unitId 0x3 g
  (if b.donorFree then b.donate g else (b.takeOut u).causeFault 3).faultReset u check 0 2 u false false

/-- A thread slot: the second lasting fault takes it out. -/
def Block.threadFault (b : Block) (u check : Nat) : Block :=
  let b := b.countLasting u
  (b.guard (2 ≤ b.lastingOf u) (·.takeOut u)).faultReset u check 0 1 u false false

/-- A camera port, the statistics unit, the codec, the record decoder, a log-store channel or LDPC: the second lasting
fault takes the unit out. -/
def Block.intakeFault (b : Block) (unit check detail i : Nat) : Block :=
  let u := unitId 0x5 i
  let b := b.countLasting u
  let out := 2 ≤ b.lastingOf u
  let b := (b.guard out (·.takeOut u)).faultReset unit check detail 2 u false false
  b.guard out (·.intakeGivesUp i)

/-- A pixel lane (R264, Table 15.1). -/
def Block.laneLasting (b : Block) (lane check : Nat) : Block :=
  let b := match b.lineOn lane with
    | some x => b.modLine x fun l => { l with onLane := none, again := some lane }
    | none => b
  ((b.laneOut lane).logLasting (unitId 0x5 (16 + lane)) 0 check 0).causeIntake 3

/-- A unit of Movement: a skidder or the gather engine goes out; another is reset in service, and at its eighth lasting
fault within 1 s the subsystem is (R415). (DEDUCED, log entry 64) -/
def Block.movementFault (b : Block) (u check : Nat) (eighth : Bool) : Block :=
  if unitIdx u ≤ 16 then (b.takeOut u).faultReset u check 0 2 u false false
  else if eighth then b.faultReset u check 0 4 movementUnit false false
  else b.faultReset u check 0 2 u false true

/-- A lasting fault in a unit other than an SRAM macro. -/
def Block.unitLasting (b : Block) (u check : Nat) (eighth : Bool) : Block :=
  let i := unitIdx u
  match unitClass u with
  | 0x0 => (b.logLasting u 5 check 0).controlBlock
  | 0x1 => b.wholeStand i u check 0
  | 0x2 => b.engineFault i check
  | 0x3 => b.coreFault i check
  | 0x4 => b.threadFault u check
  | 0x5 => if 16 ≤ i ∧ i ≤ 24 then b.laneLasting (i - 16) check else b.intakeFault u check 0 i
  | 0x6 => b.movementFault u check eighth
  | 0x9 => b.logLasting u 0 check 0
  | _ => b

/-! SRAM macros. They are numbered by physical place (DESIGN CHOICE, log entry 46): 24 in each physical stand, 32 in the landing, 16 in
Intake, 8 in the codec, 8 in the control scratchpad. -/

/-- The logical stand of a macro. (DESIGN CHOICE, log entry 46) -/
def Block.macroStand (b : Block) (m : Nat) : Option Nat := if m < 216 then b.standAt (m / 24) else none

/-- A stand that is being copied to the spare stand (R421). -/
def Block.substituting (b : Block) (s : Nat) : Bool := b.ao.rst.any fun r => r.subst && r.unit == unitId 0x1 s

/-- A macro lies in a domain that is under a reset (R417). -/
def Block.macroInReset (b : Block) (m : Nat) : Bool :=
  if m < 216 then (match b.macroStand m with
    | some s => b.underReset (unitId 0x1 s)
    | none => false)
  else if m < 248 then b.movementReset
  else if m < 264 then b.underReset intakeUnit
  else m < 272 && b.underReset (unitId 0x5 33)

/-- Write eight bytes where a lost word lies: in the stand, the landing or the program store that the macro holds.
(DESIGN CHOICE, log entry 46) (DEDUCED, log entry 65) -/
def Block.putWord (b : Block) (m row : Nat) (xs : List Byte) : Block :=
  let at_ := fun base => (m - base) * 2 ^ 18 + row % 2 ^ 15 * 8
  if m < 216 then (match b.macroStand m with
    | some s => b.swrite s (m % 24 * 2 ^ 18 + row % 2 ^ 15 * 8) xs
    | none => b)
  else if m < 248 then b.lwrite (at_ 216) xs
  else if 272 ≤ m ∧ m < 276 then b.setFk fun k => { k with pstore := memWrite k.pstore (at_ 272) xs }
  else b

/-- A word is lost: what it holds is not defined, and the commands that read it end (Table 15.1).
(DEDUCED, log entry 65) -/
def Block.loseWord (b : Block) (f : FaultInfo) : Block :=
  let b := (b.putWord f.macroNo f.row (freeBytes b 8)).used
  b.each f.cmds fun b id => match b.findCmd id with
    | some c => b.cutCmd id c stLasting
    | none => b

/-- A landing macro is fenced (R343, R423): its slots are delivered void, its contents are not defined, its frames are
lost. (DEDUCED, log entry 69) -/
def Block.fenceLanding (b : Block) (m : Nat) : Block :=
  let lo := (m - 216) * 2 ^ 18
  let hit := fun (d : Deck) (e : Nat × Slot) => match e.2 with
    | .placed _ j => if overlaps (d.place e.1) (sstride d.desc) lo (2 ^ 18) then (e.1, Slot.voided stLasting j) else e
    | .voided _ _ => e
  let b := b.setFk fun k => { k with decks := SMap.mapVals k.decks fun _ d => { d with closed := d.closed.map (hit d) } }
  ((b.lwrite lo (freeBytes b (2 ^ 18))).used).loseFrames landPlace lo (lo + 2 ^ 18)

/-- A macro with no spare left is fenced (R36). (DEDUCED, log entry 65) -/
def Block.fenceMacro (b : Block) (m detail : Nat) : Block :=
  let u := unitId 0x7 m
  let b := (b.withdrawing (·.setAo fun a => { a with fenced := SMap.set noneIn a.fenced m true })).causeFault 3
  if m < 216 then (match b.macroStand m with
    | some s => b.wholeStand s u 1 detail
    | none => (b.guard (m / 24 == 8 && b.spareMode == 0) (·.wf SPR_INVENTORY 30 2 2)).logLasting u 0 1 detail)
  else if m < 248 then (b.logLasting u 0 1 detail).fenceLanding m
  else if m < 264 then b.logLasting u 0 1 detail
  else if m < 272 then b.intakeFault u 1 detail 33
  else (b.logLasting u 5 1 detail).controlBlock

/-- A lasting fault in an SRAM word: a spare row or column takes its place, four to a macro, or the macro is fenced.
(DEDUCED, log entry 65) -/
def Block.sramLasting (b : Block) (f : FaultInfo) : Block :=
  let m := f.macroNo
  let detail := m * 2 ^ 16 + f.row % 2 ^ 16
  let used := SMap.get zeroNat b.ao.repairs m
  let b := b.loseWord f
  if used < 4 then
    ((b.setAo fun a => { a with repairs := SMap.set zeroNat a.repairs m (used + 1) }).causeFault 2).logLasting
      (unitId 0x7 m) 0 1 detail
  else b.fenceMacro m detail

/-- An uncorrectable word of the stand that is being copied: it is written as 0 and counted, and its holders lose it
(R422). (DEDUCED, log entry 69) -/
def Block.copyLoses (b : Block) (s : Nat) (f : FaultInfo) : Block :=
  let x := f.macroNo % 24 * 2 ^ 18 + f.row % 2 ^ 15 * 8
  let b := (b.swrite s x (List.replicate 8 0)).satAdd HLT_COUNT 0 16 1
  (b.loseFrames s x (x + 8)).losePool s x (x + 8)

/-- A fault of an SRAM word (Table 15.1, R409, R417). (DEDUCED, log entry 64) -/
def Block.sramFault (b : Block) (f : FaultInfo) : Block :=
  let m := f.macroNo
  let copied := match b.macroStand m with
    | some s => if b.substituting s then some s else none
    | none => none
  match copied with
  | some s => b.guard (f.lasting && !f.corrected) (·.copyLoses s f)
  | none => b.guard (!b.macroInReset m && !SMap.get noneIn b.ao.fenced m && (192 ≤ m || (b.macroStand m).isSome)) fun b =>
    if f.corrected then b.satAdd HLT_CORR 0 32 1
    else if f.lasting then b.sramLasting f
    else b.logTransient (unitId 0x7 m) 1 (m * 2 ^ 16 + f.row % 2 ^ 16)

/-- The control island's checks work while VDD_AO is in range and `fk_cold_rst_n` is 1; those on VDD_FK while the
block runs. -/
def Block.checksRun (b : Block) (u : Nat) : Bool := if unitClass u = 0x9 then b.pins.vddAo && b.pins.coldN else b.live

/-- The unit of an identity is one whose check can fail now. (DEDUCED, log entry 64) -/
def Block.canFail (b : Block) (u : Nat) : Bool :=
  unitClass u ≠ 0x7 && unitClass u ≠ 0x8 && unitClass u ≠ 0xF && domainOf u ≠ 6 && b.checksRun u && b.inService u && !b.underReset u

/-- A fault of a unit other than an SRAM macro. (DEDUCED, log entry 64) -/
def Block.unitFault (b : Block) (f : FaultInfo) : Block :=
  b.guard (b.canFail f.unit) fun b =>
    if f.lasting then b.unitLasting f.unit f.check f.eighth
    else
      let i := unitIdx f.unit
      if unitClass f.unit = 0x5 ∧ 16 ≤ i ∧ i ≤ 24 then b.laneFault (i - 16) else b.logTransient f.unit f.check 0

/-- FAULT_DETECTED (R409): CHECK 1 names an SRAM macro, CHECK 2, 3 and 5 a unit. -/
def execFaultDetected (f : FaultInfo) (s : State) : Host.Outcome State Fault Refusal :=
  s.upd fun b =>
    if f.check = 1 then b.whenLive fun b => b.guard (f.macroNo < 280) (·.sramFault f)
    else b.guard (f.check == 2 || f.check == 3 || f.check == 5) (·.unitFault f)

/-- STAGE_STALL (R410): a lasting fault of the stage's unit at once, with CHECK 4. (DEDUCED, log entry 64) -/
def execStageStall (f : FaultInfo) (s : State) : Host.Outcome State Fault Refusal :=
  s.upd fun b => b.guard (b.canFail f.unit && unitClass f.unit ≠ 0x9) fun b => b.unitLasting f.unit 4 f.eighth

/-- A ledger's sum differs from its total (R433). -/
def Block.breach (b : Block) (i : Nat) : Block :=
  let b := b.guard (!b.rb LDG_STAT 31) fun b => (b.wf LDG_STAT 31 1 1).wf LDG_STAT 0 8 i
  b.logLasting (unitId 0x0 2) 0 7 0

/-- LEDGER_BREACH (R433). -/
def execLedgerBreach (i : Nat) (s : State) : Host.Outcome State Fault Refusal :=
  s.upd fun b => b.whenLive fun b => b.guard (i ≤ 170) (·.breach i)

end Sys2Proof.Machine
end

