-- ==== Sys2Proof/Machine/ReadBack.lean ====
section
/-! DEFINITION. What a read of each register returns: its stored word, with the fields that report a unit's state as it is now (R13, R16), the ledgers (Table 15.13), and the state that observer ports show (Table 15.11). -/

namespace Sys2Proof.Machine

/-! The control island. -/

/-- CAP0 (Table 0.3). -/
def Block.cap0 (b : Block) : Word := setBits (b.reg 0x08) 4 4 (if b.live then b.standsIn else 0)

/-- GLB_PORTS (Table 2.4). -/
def strapsWord (s : Straps) : Word := BitVec.ofNat 32
  (b2n s.tb * 2 ^ 31 + b2n s.fw * 2 ^ 29 + b2n s.fe * 2 ^ 28 + s.mem.toNat * 2 ^ 24 + s.nand.toNat * 2 ^ 16 + s.cam.toNat)

/-- `fk_m_quiet` (R55). -/
def Block.quiet (b : Block) : Bool := !b.pins.vddFk || (b.fk.rdTags.isEmpty && b.fk.wrTags.isEmpty)

/-- GLB_STATUS (Table 2.9). -/
def Block.glbStatus (b : Block) : Word := BitVec.ofNat 32
  (b.rf GLB_STATUS 7 1 * 2 ^ 7 + b2n (!b.pins.pfailN) * 2 ^ 6 + b.rf GLB_STATUS 5 1 * 2 ^ 5 + b2n b.quiet * 2 ^ 4 +
    b2n b.pins.pwrok * 2 ^ 3 + b2n (b.ao.phase == .ready) * 2 ^ 2 + b2n b.inReset * 2)

/-- CAUSE of GLB_BYP: while the bypass is closed with no cause left it is one of the three, which one is not defined. -/
def Block.bypCode (b : Block) : Nat :=
  if !b.bypassed then 0 else if b.bypassCause = 0 then b.fresh % 3 + 1 else b.bypassCause

/-- The registers of the control island. -/
def Block.readAo (b : Block) (o : Nat) : Word :=
  if o = 0x08 then b.cap0
  else if o = 0x10 then strapsWord b.ao.straps
  else if o = GLB_STATUS then b.glbStatus
  else if o = GLB_BYP then setBits (b.reg GLB_BYP) 28 2 b.bypCode
  else if o = INT_SUMMARY then BitVec.ofNat 32 b.summary
  else if o = RST_STAT then setBits (b.reg RST_STAT) 31 1 (b2n b.rstBusy)
  else if o = SPR_INVENTORY then b.sprInventory
  else if o = SPR_SRAM then b.sprSram
  else if 0x2800 ≤ o ∧ o < 0x2800 + 4 * 248 then b.paceWord ((o - 0x2800) / 4)
  else b.reg o

/-! Queues, rings and counters. -/

/-- A mask of the numbers below `n` that `p` accepts. -/
def maskOf (n : Nat) (p : Nat → Bool) : Nat := (((List.range n).filter p).map fun i => 2 ^ i).sum

/-- SQ_STAT (Table 14.1): PAUSED once no start is in progress. -/
def Block.sqStat (b : Block) (n : Nat) : Nat :=
  b2n (b.sqGated n) * 2 ^ 31 + b2n (b.sqPause n && (b.q n).starting == 0) * 2 ^ 30 + b.sqRunning n

/-- A submission queue's registers. -/
def Block.readSq (b : Block) (o : Nat) : Word :=
  let n := (o - 0x4000) / 0x40
  if o % 0x40 = 0x1C then BitVec.ofNat 32 ((b.q n).cache.length * 2 ^ 16 + b.sqFetch n)
  else if o % 0x40 = 0x24 then BitVec.ofNat 32 (b.sqStat n)
  else b.reg o

/-- A completion ring's registers. -/
def Block.readCr (b : Block) (o : Nat) : Word :=
  let r := (o - 0x5000) / 0x40
  if o % 0x40 = 0x18 then BitVec.ofNat 32 ((b.ring r).inUse * 2 ^ 16 + b.crFree r) else b.reg o

/-- SYNC_CFG of the selected counter (Table 4.4). -/
def Block.syncCfgWord (b : Block) : Word :=
  let n := b.rf SYNC_SEL 0 12
  let c := b.counter n
  BitVec.ofNat 32 (b2n (n < b.sharedBase && c.lent.isSome) * 2 ^ 31 + c.owner * 2 ^ 16 + c.epoch.toNat)

/-- QM_STOPPED. -/
def Block.stoppedMask (b : Block) : Nat := maskOf 64 fun n => b.sqState n == 3

/-! Movement, booms and the landing. -/

/-- BOOM_STAT (Table 12.3). -/
def Block.boomStat (b : Block) (k : Nat) : Word :=
  setBits (setBits (b.reg (BOOM_STAT k)) 30 1 (b2n (b.boomAtLevel (BOOM_HOLD k) k))) 29 1 (b2n (b.boomAtLevel (BOOM_CRIT k) k))

/-- SKD_STAT (Table 12.2). (DEDUCED, log entry 56) -/
def Block.skdStat (b : Block) (i : Nat) : Nat :=
  b.queuedIn (.skidder i) * 2 ^ 26 + b.tagsOf false (Agent.ofSkidder i) * 2 ^ 13 + b.tagsOf true (Agent.ofSkidder i)

/-- Gather threads that run: each starts when its command is accepted (R333). -/
def Block.gatherThreads (b : Block) : Nat := SMap.count b.fk.cmds fun _ c => c.unit == .gather && c.phase ≠ .queued

/-- LND_STAT (Table 12.4). (DEDUCED, log entry 56) -/
def Block.lndStat (b : Block) : Word :=
  BitVec.ofNat 32 (b.landUnits * 2 ^ 16 + b.fencedIn 216 248 * 2 ^ 8 + b.stageUsed)

/-- The registers of the booms, the movers and the landing. (DEDUCED, log entry 56) -/
def Block.readMv (b : Block) (o : Nat) : Word :=
  let k := (o - 0x8100) / 0x20
  if 0x8100 ≤ o ∧ o < 0x8200 ∧ o % 0x20 = 0x10 then BitVec.ofNat 32 (b.boomTotal k)
  else if 0x8100 ≤ o ∧ o < 0x8200 ∧ o % 0x20 = 0x14 then BitVec.ofNat 32 (b.boomFree k)
  else if 0x8100 ≤ o ∧ o < 0x8200 ∧ o % 0x20 = 0x18 then BitVec.ofNat 32 (b.boomInUse k)
  else if 0x8100 ≤ o ∧ o < 0x8200 ∧ o % 0x20 = 0x1C then b.boomStat k
  else if 0x8800 ≤ o ∧ o < 0x8880 ∧ o % 8 = 4 then BitVec.ofNat 32 (b.skdStat ((o - 0x8800) / 8))
  else if o = GE_STAT then BitVec.ofNat 32 (b.gatherThreads * 2 ^ 16 + b.tagsOf false Agent.ofGather)
  else if o = MV_TAGS then BitVec.ofNat 32 ((4096 - b.fk.rdTags.length) * 2 ^ 16 + (2048 - b.fk.wrTags.length))
  else if o = LND_STAT then b.lndStat
  else b.reg o

/-- STATE of a deck channel (Table 12.5): it is stopped once its deck has ended and its space no longer fits (R343). -/
def Block.dkState (b : Block) (c : Nat) (d : Deck) : Nat :=
  if !b.deckEn c then 0
  else if !d.isOpen && !b.spaceFits d then 3
  else if b.isSusp (.deck c) then 2
  else 1

/-- A deck channel's registers. -/
def Block.readDk (b : Block) (o : Nat) : Word :=
  let c := (o - 0xA000) / 0x40
  match b.deck? c with
  | none => b.reg o
  | some d =>
    if o % 0x40 = 0x00 then setBits (b.reg o) 28 2 (b.dkState c d)
    else if o % 0x40 = 0x2C then setBits (b.reg o) 0 13 (b.winUsed c)
    else if o % 0x40 = 0x30 then setBits (b.reg o) 24 8 d.times.length
    else if o % 0x40 = 0x38 then
      setBits (setBits (b.reg o) 31 1 (b2n (b.isSusp (.deck c)))) 0 24 (min ((b.stragLimit c d).getD 0) 0xFFFFFF)
    else b.reg o

/-- The registers of translation (Table 4.9); the root window shows the context of XL_CTX_SEL. -/
def Block.readXl (b : Block) (o : Nat) : Word :=
  if o = XL_INV then setBits (b.reg o) 31 1 (b2n b.fk.xl.inval.isSome)
  else if o = XL_FQ_STAT then
    setBits (setBits (b.reg o) 23 9 b.fk.xl.fids.length) 14 9 b.fk.xl.records.length
  else if 0xC800 ≤ o ∧ o < 0xCA00 then
    BitVec.ofNat 32 (bits (b.root (b.rf XL_CTX_SEL 0 6) ((o - 0xC800) / 8)) (o % 8 * 8) 32)
  else b.reg o

/-! Intake. -/

/-- CAM_FE_STORE.FREE (R257). -/
def Block.feFree (b : Block) : Nat :=
  b.feStore - (((List.range 48).filter b.strEn).map fun s => (b.str s).active.store).sum

/-- CAM_FE_BUSY.READY. -/
def Block.feReady (b : Block) : Nat := ((List.range 12).map fun p => (b.readyLines p none).length).sum

/-- A camera stream's registers (Table 9.3). -/
def Block.readStr (b : Block) (o : Nat) : Word :=
  let s := (o - 0x11000) / 0x40
  let x := b.str s
  if o % 0x40 = 0x2C then BitVec.ofNat 32 (x.loop.dgain * 2 ^ 16 + x.loop.exp)
  else if o % 0x40 = 0x30 then BitVec.ofNat 32 (x.loop.gainR * 2 ^ 16 + x.loop.gainB)
  else if o % 0x40 = 0x3C then setBits (setBits (b.reg o) 5 1 (b2n x.waiting.isSome)) 0 3 x.held
  else b.reg o

/-- The registers of the camera ports, the front end and the triggers (Tables 2.20, 9.2, 9.4). -/
def Block.readCam (b : Block) (o : Nat) : Word :=
  if 0x10000 ≤ o ∧ o < 0x10300 ∧ o % 0x40 = 0x04 then
    let p := (o - 0x10000) / 0x40
    setBits (setBits (b.reg o) 31 1 (b2n (b.camPresent p))) 0 13 (b.lbUsed p)
  else if o = CAM_FE_LANES then setBits (setBits (b.reg o) 24 4 b.ao.lanesOut) 0 9 b.ao.lanes.toNat
  else if o = CAM_FE_BUSY then BitVec.ofNat 32 b.feReady
  else if o = CAM_FE_STORE then BitVec.ofNat 32 b.feFree
  else if 0x11000 ≤ o ∧ o < 0x11C00 then b.readStr o
  else if isTableWindow o then (match b.tableKey o with
    | some k => BitVec.ofNat 32 (leNat (readBytes (SMap.get tableByte b.fk.fe.tables) k 4))
    | none => 0)
  else if isTrigReg o ∧ o % 0x10 = 0 then setBits (b.reg o) 1 1 (b2n (b.trig ((o - 0x1F000) / 0x10)).level)
  else b.reg o

/-- The codec's registers (Table 10.14). -/
def Block.readCdc (b : Block) (o : Nat) : Word :=
  if o < 0x20200 ∧ o % 0x10 = 0 then b.sessReg ((o - 0x20000) / 0x10)
  else if 0x20200 ≤ o ∧ o < 0x20300 ∧ o % 0x10 = 0 then b.recReg ((o - 0x20200) / 0x10)
  else if o = CDC_STAT then b.codecStat
  else b.reg o

/-- LS_WEAR: the greatest and the least erase count over the segments in service. (DESIGN CHOICE, log entry 50) -/
def Block.lsWear (b : Block) : Nat :=
  let es := ((List.range 64).filter b.flash.targets.testBit).flatMap fun t =>
    (List.range (gmLuns b.flash.geom)).flatMap fun l =>
      ((List.range (gmBlocks b.flash.geom - b.flash.spareStart)).filterMap fun k =>
        let x := b.lsSeg (segNo t l k)
        if x.dead then none else some x.erases)
  min (es.foldl max 0) 0xFFFF * 2 ^ 16 + min (es.foldl min (es.headD 0)) 0xFFFF

/-- LS_SPARE: targets that take no new members, and spare blocks left. -/
def Block.lsSpare (b : Block) : Nat :=
  let ts := (List.range 64).filter b.flash.targets.testBit
  let left := ts.flatMap fun t => (List.range (gmLuns b.flash.geom)).flatMap fun l =>
    (List.range (gmPlanes b.flash.geom)).map fun p => b.sparesLeft (t * 16 + l * 4 + p)
  (ts.filter b.spent).length * 2 ^ 24 + left.sum

/-- The registers of the stream that LS_STR_SEL selects (Table 11.11). -/
def Block.readLsStr (b : Block) (o : Nat) : Word :=
  let s := b.rf LS_STR_SEL 0 5
  let x := b.lsStream s
  let start := (x.map LogStream.start).getD 0
  let end_ := (x.map LogStream.endOff).getD 0
  if o = LS_STR_CFG then
    let w := setBits (b.lsBound s) 31 1 (b2n x.isSome)
    (match x with
     | some y => setBits w 16 1 (b2n y.ring)
     | none => w)
  else if o = LS_STR_START_LO then BitVec.ofNat 32 start
  else if o = LS_STR_START_LO + 4 then BitVec.ofNat 32 (start / 2 ^ 32)
  else if o = LS_STR_END_LO then BitVec.ofNat 32 end_
  else if o = LS_STR_END_LO + 4 then BitVec.ofNat 32 (end_ / 2 ^ 32)
  else b.reg o

/-- The log store's registers; the counts of the tables while it is mounted. -/
def Block.readLs (b : Block) (o : Nat) : Word :=
  if 0x30104 ≤ o ∧ o < 0x30118 then b.readLsStr o
  else if !b.mounted then b.reg o
  else if o = LS_FMT then setBits (b.reg o) 8 8 b.flash.stripe
  else if o = LS_SEG_TOTAL then BitVec.ofNat 32 b.flash.segTotal
  else if o = LS_SEG_FREE then BitVec.ofNat 32 b.segFree
  else if o = LS_WEAR then BitVec.ofNat 32 b.lsWear
  else if o = LS_SPARE then BitVec.ofNat 32 b.lsSpare
  else b.reg o

/-! The flume and the tally. -/

/-- The flume port's registers (Table 13.6). -/
def Block.readFl (b : Block) (o : Nat) : Word :=
  if o = FL_CFG then setBits (b.reg o) 30 1 (b2n (b.flOn && b.flNode == b.flMgr))
  else if o = FL_LINK 0 ∨ o = FL_LINK 1 then setBits (b.reg o) 30 2 (b.linkState ((o - FL_LINK 0) / 4))
  else if o = FL_INFLIGHT then
    BitVec.ofNat 32 (b.freeFlows.length * 2 ^ 28 + (1024 - b.flInUse) * 2 ^ 16 + b.flInUse)
  else if o = FL_RXUSED then BitVec.ofNat 32 b.rxUsed
  else if 0x38400 ≤ o ∧ o < 0x38600 ∧ o % 0x20 = 0x00 then
    setBits (b.reg o) 30 1 (b2n (b.isSusp (.rxPort ((o - 0x38400) / 0x20))))
  else b.reg o

/-- The tally's registers (Table 16.2). -/
def Block.readTly (b : Block) (o : Nat) : Word :=
  let i := (o - 0x3C000) / 0x10
  if o < 0x3D000 ∧ o % 0x10 = 4 then BitVec.ofNat 32 (b.tallyCount i)
  else if o < 0x3D000 ∧ o % 0x10 = 8 then BitVec.ofNat 32 (b.tallyCount i / 2 ^ 32)
  else b.reg o

/-! Observed state (Table 15.11). -/

/-- The words of consecutive offsets. -/
def offsets (lo hi : Nat) : List Nat := (List.range ((hi - lo) / 4)).map fun i => lo + 4 * i

/-- JOB and SQ of a job. -/
def Block.jobWord (b : Block) (j : Nat) : Nat :=
  match b.findJob j with
  | some job => entTag job.entry % 2 ^ 16 + job.sq * 2 ^ 16
  | none => 0

/-- The major opcode of an operation (Table 5.3). -/
def TOp.major : TOp → Nat
  | .mma | .mmaZero | .mmaStore => 0x20
  | .win => 0x21
  | .rsmp => 0x22
  | .warp => 0x23
  | .skid => 0x24
  | .gather => 0x25
  | .scatter => 0x26
  | .takeFrame | .takeRegion => 0x27
  | .codec => 0x28
  | .logrd => 0x29
  | .logwr => 0x2A
  | .slotPlace | .slotVoid => 0x2B

/-- Word 1 of format T (Table 5.2). -/
def wordT1 (f : TForm) : Nat :=
  f.sh.toNat * 2 ^ 31 + f.ctr.toNat * 2 ^ 19 + f.inc.toNat * 2 ^ 11 + f.sy.toNat * 2 ^ 6 + f.imm.toNat

/-- The four words of a command (KIND 0x05): the command's two words, its job and whether it is in progress, its
thread. -/
def Block.cmdWords (b : Block) (c : Cmd) : List Nat :=
  [wordT c.op.major c.form, wordT1 c.form, b.jobWord c.job + b2n c.active * 2 ^ 22, c.thread]

/-- The commands of a unit in acceptance order, `n` of them, the rest 0. -/
def Block.unitWords (b : Block) (u : CmdUnit) (n : Nat) : List Nat :=
  let cs := ((b.fk.cmds.map fun e => e.2).filter fun c => c.unit == u && match c.phase with
    | .finished _ => false
    | _ => true).mergeSort fun x y => x.order ≤ y.order
  let ws := (cs.take n).flatMap b.cmdWords
  ws ++ List.replicate (4 * n - ws.length) 0

/-- A bank word of an engine. -/
def Block.bankWord (b : Block) (i : Nat) : Nat :=
  match SMap.find b.fk.banks i with
  | none => 0
  | some k => k.cls % 4 * 2 ^ 22 + match k.owner with
    | some j => b.jobWord j + 2 ^ 24
    | none => 0

/-- KIND 0x05 of engine `e`. -/
def Block.engineWords (b : Block) (e : Nat) : List Nat :=
  (List.range 4).map (fun k => b.bankWord (4 * e + k)) ++ b.unitWords (.engine e) 16

/-- STATE of a thread. -/
def Hold.code : Hold → Nat
  | .none => 1
  | .wait _ _ => 2
  | .balloc _ _ => 3
  | .unit => 4

/-- The four words of a thread slot (KIND 0x04). -/
def Block.threadWords (b : Block) (th : Nat) : List Nat :=
  match b.findThread th with
  | none => [0, 0, 0, 0]
  | some t =>
    let tst := match b.findJob t.job with
      | some j => (j.tstOf t.jidx).last.toNat
      | none => 0
    let waited := match t.hold with
      | .wait c target => (c, target.toNat)
      | _ => (0, 0)
    let pc := match b.findJob t.job with
      | some j => (entProg j.entry + t.pc.toNat) % 2 ^ 20
      | none => 0
    [pc + t.hold.code * 2 ^ 20 + t.ep.toNat * 2 ^ 24, b.jobWord t.job,
     waited.1 + b.inflight t.job t.jidx % 256 * 2 ^ 16 + tst * 2 ^ 24, waited.2]

/-- KIND 0x04 of core `g`. -/
def Block.coreWords (b : Block) (g : Nat) : List Nat := (List.range 64).flatMap fun t => b.threadWords (64 * g + t)

/-- A word of the stand debug window (R435); none where the stand is in reset, unpowered or out of service. -/
def Block.standWord (b : Block) (o : Nat) : Option Word :=
  let x := (o - 0x40000) % 0x4000
  match b.standAt ((o - 0x40000) / 0x4000) with
  | none => none
  | some s =>
    if !b.standIn s || b.underReset (unitId 0x1 s) then none
    else if x < 0x2000 then some (BitVec.ofNat 32 ((b.coreWords (8 * s + x / 0x400)).getD (x % 0x400 / 4) 0))
    else if x < 0x2000 + 4 * 272 then
      some (BitVec.ofNat 32 ((b.engineWords (4 * s + (x - 0x2000) / 272)).getD ((x - 0x2000) % 272 / 4) 0))
    else some 0

/-! Every register. -/

/-- The registers on VDD_FK. -/
def Block.readFk (b : Block) (o : Nat) : Word :=
  if o = SYNC_VAL then (b.counter (b.rf SYNC_SEL 0 12)).value
  else if o = SYNC_CFG then b.syncCfgWord
  else if o = HANG_Q_LO then BitVec.ofNat 32 b.hangQ
  else if o = HANG_Q_HI then BitVec.ofNat 32 (b.hangQ / 2 ^ 32)
  else if 0x4000 ≤ o ∧ o < 0x5000 then b.readSq o
  else if 0x5000 ≤ o ∧ o < 0x5400 then b.readCr o
  else if o = QM_STOPPED_LO then BitVec.ofNat 32 b.stoppedMask
  else if o = QM_STOPPED_HI then BitVec.ofNat 32 (b.stoppedMask / 2 ^ 32)
  else if 0x8000 ≤ o ∧ o < 0xA000 then b.readMv o
  else if 0xA000 ≤ o ∧ o < 0xB000 then b.readDk o
  else if 0xC000 ≤ o ∧ o < 0x10000 then b.readXl o
  else if 0x10000 ≤ o ∧ o < 0x20000 then b.readCam o
  else if 0x20000 ≤ o ∧ o < 0x30000 then b.readCdc o
  else if 0x30000 ≤ o ∧ o < 0x38000 then b.readLs o
  else if 0x38000 ≤ o ∧ o < 0x3C000 then b.readFl o
  else if 0x3C000 ≤ o ∧ o < 0x40000 then b.readTly o
  else b.reg o

/-- The byte offset of a program-store window access (R105). -/
def Block.pstoreOff (b : Block) (o : Nat) : Nat := b.rf GLB_PSTORE_BANK 0 2 * 2 ^ 18 + (o - 0xC0000)

/-- What a read of an offset returns; an offset without a register reads 0 (R65). -/
def Block.readReg (b : Block) (o : Nat) : Word :=
  if isAo o then b.readAo o
  else if isDumpWindow o then BitVec.ofNat 32 (memNat b.ao.dump (o - 0x80000) 4)
  else if isPstoreWindow o then b.pword (b.pstoreOff o)
  else if isStandWindow o then (b.standWord o).getD 0
  else if (fkInfo o).isSome || isTableWindow o then b.readFk o
  else 0

/-! Ledgers (R432, R433). -/

/-- IN_USE and TOTAL of a ledger of Table 15.13. (DEDUCED, log entry 56) -/
def Block.ledger (b : Block) (i : Nat) : Nat × Nat :=
  if i = 0 then (b.fk.rdTags.length, 4096)
  else if i = 1 then (b.fk.wrTags.length, 2048)
  else if i = 2 then (b.flInUse, 1024)
  else if i = 3 then (15 - b.freeFlows.length, 15)
  else if i = 4 then (b.fk.ls.ops.length, 512)
  else if i = 5 then (b.fk.xl.fids.length, 256)
  else if i = 6 then (b.stageUsed, 32)
  else if i = 7 then (b.sharedBase - b.poolFree.length, b.sharedBase)
  else if i = 8 then (b.fk.threads.length, b.threadSlots.length)
  else if i < 17 then (b.boomInUse (i - 9), b.boomTotal (i - 9))
  else if i < 33 then ((b.ring (i - 17)).inUse, b.crEntries (i - 17) - 1)
  else if i < 97 then (b.winUsed (i - 33), if b.deckEn (i - 33) then ((b.deck? (i - 33)).map Deck.win).getD 0 else 0)
  else if i < 161 then (b.dkInflight (i - 97), if b.deckEn (i - 97) then ((b.deck? (i - 97)).map fun d => d.dbuf).getD 0 else 0)
  else if i < 169 then (b.parkUsed (i - 161), 64)
  else if i = 169 then (b.fk.codec.sessions.length, 32)
  else if i = 170 then (b.fk.codec.records.length, 16)
  else (0, 0)

/-- A write to LDG_SEL captures the ledger (R433). -/
def Block.ldgSel (b : Block) (data : Word) : Block :=
  let x := b.ledger (bits data 0 8)
  (((b.writeReg LDG_SEL data).setReg LDG_INUSE (BitVec.ofNat 32 x.1)).setReg LDG_FREE (BitVec.ofNat 32 (x.2 - x.1))).setReg
    LDG_TOTAL (BitVec.ofNat 32 x.2)

/-- LDG_SEL_WRITE (R433). -/
def execLdgSelWrite (data : Word) (s : State) : Host.Outcome State Fault Refusal :=
  s.upd fun b => b.portWrite LDG_SEL data (·.ldgSel data)

end Sys2Proof.Machine
end

