-- ==== Sys2Proof/Machine/Power.lean ====
section
/-! DEFINITION. Supplies, resets, straps and self-test (2.2, 2.3, 17.1, Tables 2.6 and 2.7). -/

namespace Sys2Proof.Machine

/-! Straps (R39 to R41). -/

/-- The largest valid memory set that a value contains (R40). (DEDUCED, log entry 74) -/
def reduceMem (m : BitVec 4) : BitVec 4 :=
  if m = 0xF then 0xF else if m &&& 3 = 3 then 3 else if m &&& 1 = 1 then 1 else 0

/-- The strap set after reduction (R40). (DEDUCED, log entry 74) -/
def reduceStraps (st : Straps) : Straps :=
  { st with mem := reduceMem st.mem, fe := st.fe && st.fw, fw := st.fe && st.fw }

/-! Cold reset (R51, Table 2.6). -/

/-- The control island takes its reset values; the block domain is in reset, and goes through Table 2.7 unless it has.
(DEDUCED, log entry 17) -/
def Block.coldApply (b : Block) : Block :=
  let phase := if b.ao.phase = .held then Phase.held else Phase.entering
  let b := (b.setAo fun _ => { Ao.reset with phase := phase }).setFk fun k => { k with trig := [] }
  b.setBus fun u => { u with ack := false, rdata := 0, err := false, cap := [] }

/-- COLD_RESET_ASSERT (R51, R52). -/
def execColdResetAssert (s : State) : Host.Outcome State Fault Refusal :=
  s.upd fun b => (b.setPins fun p => { p with coldN := false }).guard (b.pins.vddAo && b.pins.coldN) Block.coldApply

/-- The straps are sampled and reduced (R39, R40). (DEDUCED, log entry 74) -/
def Block.sampleStraps (b : Block) (st : Straps) : Block :=
  let r := reduceStraps st
  (b.setAo fun a => { a with straps := r }).wf GLB_STATUS 7 1 (b2n (decide (r ≠ st)))

/-- COLD_RESET_RELEASE (R39, R40, Table 2.6 steps 3 and 4). -/
def execColdResetRelease (st : Straps) (s : State) : Host.Outcome State Fault Refusal :=
  s.upd fun b => (b.setPins fun p => { p with coldN := true }).guard (b.pins.vddAo && !b.pins.coldN) (·.sampleStraps st)

/-! The other causes of block-domain reset (R52) and the supplies. -/

/-- A cause of R52 appears: the control island is defined, and puts the block domain into reset. -/
def Block.resetCause (b : Block) : Block := b.guard b.pins.vddAo Block.enterReset

/-- WARM_RESET_ASSERT (R52). -/
def execWarmResetAssert (s : State) : Host.Outcome State Fault Refusal :=
  s.upd fun b => (b.setPins fun p => { p with warmN := false }).resetCause
/-- WARM_RESET_RELEASE (R52). -/
def execWarmResetRelease (s : State) : Host.Outcome State Fault Refusal :=
  s.upd fun b => b.setPins fun p => { p with warmN := true }
/-- PWROK_RISE (R50, R52): the integrator raises it only while VDD_FK is in range. (DEDUCED, log entry 16) -/
def execPwrokRise (s : State) : Host.Outcome State Fault Refusal :=
  s.upd fun b => b.setPins fun p => { p with pwrok := true, vddFk := true }
/-- PWROK_FALL (R52, R54). -/
def execPwrokFall (s : State) : Host.Outcome State Fault Refusal :=
  s.upd fun b => (b.setPins fun p => { p with pwrok := false }).resetCause

/-- VDD_FK_LOSS (R53, R56): every VDD_FK unit loses its state and the clamps apply at once; no tag is outstanding.
(DEDUCED, log entry 16) -/
def execVddFkLoss (s : State) : Host.Outcome State Fault Refusal :=
  s.upd fun b => (b.resetCause.setPins fun p => { p with vddFk := false }).domainLost

/-- The registers of the control island. -/
def aoOffsets : List Nat :=
  ((List.range 0x85).map fun i => 0x10 + 4 * i) ++ ((List.range 0x64).map fun i => 0x1000 + 4 * i) ++
    ((List.range 0x300).map fun i => 0x2000 + 4 * i)

/-- What the control island holds is not defined (R452): registers, `fk_irq`, and where the block domain stands.
(DEDUCED, log entry 16) -/
def Block.undefineAo (b : Block) : Block :=
  let b := b.each (aoOffsets.filter isAo) fun b o => (b.setReg o (BitVec.ofNat 32 b.fresh)).used
  let b := (b.setPins fun p => { p with irq := b.fresh % 2 == 1 }).used
  (b.setAo fun a => { a with phase := ([Phase.entering, .held, .selfTest, .ready][b.fresh % 4]?).getD .held }).used

/-- VDD_AO_EXCURSION (R452). -/
def execVddAoExcursion (s : State) : Host.Outcome State Fault Refusal :=
  s.upd fun b => b.guard b.pins.vddAo fun b => (b.undefineAo).setPins fun p => { p with vddAo := false }

/-- VDD_AO_IN_RANGE (R4, R51, Table 2.6 step 1): in cold reset the island holds its reset values, the bypass closed.
(DEDUCED, log entry 16) -/
def execVddAoInRange (s : State) : Host.Outcome State Fault Refusal :=
  s.upd fun b => b.guard (!b.pins.vddAo) fun b =>
    (b.setPins fun p => { p with vddAo := true }).guard (!b.pins.coldN) Block.coldApply

/-- PFAIL_ASSERT (R74). -/
def execPfailAssert (s : State) : Host.Outcome State Fault Refusal :=
  s.upd fun b => b.setPins fun p => { p with pfailN := false }
/-- PFAIL_DEASSERT (R74). -/
def execPfailDeassert (s : State) : Host.Outcome State Fault Refusal :=
  s.upd fun b => b.setPins fun p => { p with pfailN := true }

/-! Entry and exit (Table 2.7). -/

/-- NAND targets are idle, or have had 10 ms (Table 2.7 step 4). -/
def Block.nandQuiet (b : Block) : Bool := b.ao.nandWaitOver || b.fk.ls.ops.isEmpty

/-- NAND_IDLE_LIMIT (Table 2.7 step 4). -/
def execNandIdleLimit (s : State) : Host.Outcome State Fault Refusal :=
  s.upd fun b => b.guard (b.pins.vddAo && b.ao.phase == .entering) (·.setAo fun a => { a with nandWaitOver := true })

/-- BLOCK_DOMAIN_RESET_ENTRY (R54, Table 2.7): step 2 where `fk_fclk` runs, and step 5 once both events of step 4 are done.
(DEDUCED, log entry 17) -/
def execBlockDomainResetEntry (s : State) : Host.Outcome State Fault Refusal :=
  s.upd fun b => b.guard (b.pins.vddAo && b.ao.phase == .entering) fun b =>
    b.closeNow.guard (b.quiet && b.nandQuiet) Block.domainLost

/-- The block domain may leave reset (R41, R52, R447 step 3). -/
def Block.mayLeave (b : Block) : Bool :=
  b.pins.vddAo && b.pins.coldN && b.pins.warmN && b.pins.pwrok && b.pins.vddFk && b.ao.phase == .held &&
    b.ao.straps.mem ≠ 0 && !b.rb SPR_SELFTEST 30

/-- The duration of a block reset that Control applied, which ends here; the spec gives no figure for it.
(DEDUCED, log entry 68) -/
def Block.controlOver (b : Block) : Block :=
  b.guard b.ao.controlReset fun b =>
    ((b.setReg RST_TIME (BitVec.ofNat 32 (b.fresh % 2 ^ 16))).used).setAo fun a => { a with controlReset := false }

/-- BLOCK_DOMAIN_RESET_EXIT (R52, R448): into self-test, or to the ready state with spare state kept. -/
def execBlockDomainResetExit (s : State) : Host.Outcome State Fault Refusal :=
  s.upd fun b => b.guard b.mayLeave fun b =>
    b.controlOver.setAo fun a => { a with phase := if bit (b.reg SPR_SELFTEST) 31 then .ready else .selfTest }

/-! Self-test (R447 to R449). No reset is applied to a unit that it finds failing, so its records have DOMAIN 0. -/

/-- A unit or macro that self-test took out of service, replaced or fenced. -/
def Block.stFailed (b : Block) : Block := b.satAdd SPR_SELFTEST 16 8 1

/-- One spare row or column of a macro is used; the row that failed is not named. (DEDUCED, log entry 73) -/
def Block.stRepair (b : Block) (m : Nat) : Block :=
  let used := SMap.get zeroNat b.ao.repairs m
  b.guard (m < 280 && used < 4) fun b =>
    let b := (b.setAo fun a => { a with repairs := SMap.set zeroNat a.repairs m (used + 1) }).causeFault 2
    (b.logLasting (unitId 0x7 m) 0 1 (m * 2 ^ 16 + b.fresh % 2 ^ 16)).used

/-- A stand that fails in self-test is replaced while the spare stand is free, and goes out otherwise (Table 1.9). -/
def Block.stStand (b : Block) (s : Nat) : Block := if b.spareFree then b.mapSpare s else b.standOut s

/-- A macro that cannot be repaired is fenced (R36); one of stand 8 ends its use as a whole stand.
(DEDUCED, log entry 73) -/
def Block.stFence (b : Block) (m : Nat) : Block :=
  b.guard (m < 280) fun b =>
    let b := (b.setAo fun a => { a with fenced := SMap.set noneIn a.fenced m true }).causeFault 3
    let b := ((b.logLasting (unitId 0x7 m) 0 1 (m * 2 ^ 16 + b.fresh % 2 ^ 16)).used).stFailed
    if m < 216 then (match b.macroStand m with
      | some s => b.stStand s
      | none => b.guard (m / 24 == 8 && b.spareMode == 0) (·.wf SPR_INVENTORY 30 2 2))
    else if m < 264 then b
    else if m < 272 then b.countLasting (unitId 0x5 33)
    else b.wf SPR_SELFTEST 30 1 1

/-- The check that a known-answer test of a unit stands for; of a tidy core either of its two.
(DEDUCED, log entry 73) -/
def Block.stCheck (b : Block) (u : Nat) : Nat :=
  match unitClass u with
  | 0x2 => 2
  | 0x3 => b.fresh % 2 + 2
  | 0x5 => 5
  | _ => 3

/-- The units that step 2 tests. -/
def stTests (u : Nat) : Bool :=
  domainOf u ≠ 6 && match unitClass u with
    | 0x2 | 0x3 => true
    | 0x5 => 16 ≤ unitIdx u && unitIdx u ≤ 24
    | 0x6 => unitIdx u ≤ 16
    | _ => false

/-- The spare lane fails while it is unused: it is spent. (DEDUCED, log entry 66) -/
def Block.stLane (b : Block) (lane : Nat) : Block :=
  if lane = 8 ∧ b.ao.lanesOut = 0 then
    (b.setAo fun a => { a with lanesOut := 1 }).wf SPR_INVENTORY 25 1 0
  else b.laneOut lane

/-- A unit fails twice in step 2. (DEDUCED, log entry 73) -/
def Block.stLasting (b : Block) (u : Nat) : Block :=
  b.guard (stTests u && (b.inService u || u == unitId 0x5 24)) fun b =>
    let b := ((b.logLasting u 0 (b.stCheck u) 0).used).stFailed
    let i := unitIdx u
    match unitClass u with
    | 0x2 => if b.spareFree then b.mapSpare (i / 4) else (b.takeOut u).causeFault 3
    | 0x3 => if b.donorFree then b.donate i else (b.takeOut u).causeFault 3
    | 0x5 => b.stLane (i - 16)
    | _ => b.takeOut u

/-- A unit fails once in step 2. -/
def Block.stTransient (b : Block) (u : Nat) : Block :=
  b.guard (stTests u && b.inService u) fun b => (b.logTransient u (b.stCheck u) 0).used

/-- The special cases of stand 8: a failed matrix engine, and tidy cores that fail, each with its record. The stand has no
logical number, and which identity its records carry is not defined. (DEDUCED, log entry 73) -/
def Block.stStand8 (b : Block) (engine : Bool) (cores : Nat) : Block :=
  let rec_ := fun (b : Block) (cls check : Nat) =>
    ((b.logLasting (unitId cls (b.fresh % 2 ^ 12)) 0 check 0).used).stFailed
  let b := b.guard engine fun b => (rec_ b 0x2 2).guard (b.spareMode == 0) (·.wf SPR_INVENTORY 30 2 2)
  b.each (List.range (min cores 8)) fun b _ => (rec_ b 0x3 2).wf SPR_INVENTORY 26 4 (b.donorLeft - 1)

/-- A Control unit fails in step 3: FATAL, and the record of the failure (R447, Table 15.1). The command does not say which
unit it was. (DEDUCED, log entry 73) -/
def Block.stFatal (b : Block) : Block :=
  ((b.logLasting (unitId 0x0 (b.fresh % 6)) 0 3 0).used).wf SPR_SELFTEST 30 1 1

/-- Steps 1 to 3 of R447. (DEDUCED, log entry 73) -/
def Block.stFindings (b : Block) (r : SelfTest) : Block :=
  let b := b.each r.repairs fun b e => b.each (List.range (min e.2 4)) fun b _ => b.stRepair e.1
  let b := b.each r.fenced Block.stFence
  let b := b.stStand8 r.stand8Engine r.stand8Cores
  let b := (b.each r.lasting Block.stLasting).each r.transient Block.stTransient
  b.guard r.fatal Block.stFatal

/-- Steps 4 and 5: every word of VDD_FK SRAM is 0; DONE and TIME_US; the block is ready unless FATAL.
(DEDUCED, log entry 6) (DEDUCED, log entry 73) -/
def Block.stEnd (b : Block) (us : Nat) : Block :=
  let b := (b.wf SPR_SELFTEST 31 1 1).wf SPR_SELFTEST 0 16 (min us 0xFFFF)
  let fatal := b.rb SPR_SELFTEST 30
  (b.setFk fun _ => Fk.reset).setAo fun a => { a with phase := if fatal then .held else .ready }

/-- SELF_TEST_DONE (R447 to R449). -/
def execSelfTestDone (r : SelfTest) (s : State) : Host.Outcome State Fault Refusal :=
  s.upd fun b => b.guard (b.pins.vddAo && b.pins.coldN && b.ao.phase == .selfTest) fun b => (b.stFindings r).stEnd r.timeUs

end Sys2Proof.Machine
end

