-- ==== Sys2Proof/Machine/Dump.lean ====
section
/-! DEFINITION. The observer chain: crash dumps (R426 to R430) and the test access port (R67, R431). -/

namespace Sys2Proof.Machine

/-! Records (Table 15.11). -/

/-- The values of registers in offset order. -/
def Block.regWords (b : Block) (lo hi : Nat) : List Nat := (offsets lo hi).map fun o => (b.readReg o).toNat

/-- KIND 0x01: a queue. -/
def Block.queueWords (b : Block) (n : Nat) : List Nat :=
  let waited := (b.waitedCtrs n).foldl min ((b.waitedCtrs n).headD 0)
  [SQ_CFG n, SQ_HEAD n, SQ_FETCH n, SQ_ERRIDX n, SQ_STAT n].map (fun o => (b.readReg o).toNat) ++
    [b2n (b.sqBlocked n) + b2n (b.nonIdle n) * 2 + waited * 2 ^ 16, 0, 0]

/-- WAITERS of a counter: threads in WAIT and gated heads on it. -/
def Block.waiters (b : Block) (n : Nat) : Nat :=
  SMap.count b.fk.threads (fun _ t => t.waits == some n) +
    ((List.range 64).filter fun q => b.sqGated q && match b.headEntry q with
      | some e => entGateCtr e.bits == n
      | none => false).length

/-- KIND 0x03: a counter. -/
def Block.counterWords (b : Block) (n : Nat) : List Nat :=
  let c := b.counter n
  let shared := b.sharedBase ≤ n
  [c.value.toNat, c.epoch.toNat + ((b.producer n).getD 0) * 2 ^ 8 + b2n (!shared && c.lent.isSome) * 2 ^ 14 +
    b2n shared * 2 ^ 15 + b.waiters n * 2 ^ 16]

/-- KIND 0x0F: IN_USE, FREE and TOTAL of a ledger. -/
def Block.ledgerWords (b : Block) (i : Nat) : List Nat :=
  let x := b.ledger i
  [x.1, x.2 - x.1, x.2]

/-- The records in the order of Table 15.11: KIND and UNIT. -/
def dumpRecords : List (Nat × Nat) :=
  [(0x01, 0x0000), (0x02, 0x0000), (0x03, 0x0002)] ++ (List.range 64).map (fun g => (0x04, unitId 0x3 g)) ++
    (List.range 32).map (fun e => (0x05, unitId 0x2 e)) ++ (List.range 17).map (fun k => (0x06, unitId 0x6 k)) ++
    [(0x07, 0x6011), (0x08, 0x6012), (0x09, 0x6014), (0x0A, 0x8001), (0x0B, 0x5021), (0x0C, 0x5028), (0x0D, 0x601C),
     (0x0E, 0x9000), (0x0F, 0x0000), (0x10, 0x9000)]

/-- The words of a record's payload. -/
def Block.payload (b : Block) (r : Nat × Nat) : List Nat :=
  let i := unitIdx r.2
  match r.1 with
  | 0x01 => (List.range 64).flatMap b.queueWords
  | 0x02 => (List.range 16).flatMap fun k => b.regWords (0x5000 + 0x40 * k) (0x5020 + 0x40 * k)
  | 0x03 => (List.range 4096).flatMap b.counterWords
  | 0x04 => b.coreWords i
  | 0x05 => b.engineWords i
  | 0x06 =>
    if i < 16 then b.regWords (SKD_CFG i) (SKD_CFG i + 8) ++ [0, 0] ++ b.unitWords (.skidder i) 32
    else b.regWords GE_CFG (GE_CFG + 8) ++ [0, 0] ++ b.unitWords .gather 256
  | 0x07 => b.regWords 0xC020 0xC03C ++ [0] ++ b.regWords 0xC100 0xC200
  | 0x08 => b.regWords 0x8000 0x8018 ++ b.regWords 0x8100 0x8200
  | 0x09 => (b.readReg LND_STAT).toNat :: b.regWords 0xA000 0xB000
  | 0x0A => b.regWords 0x10000 0x10300 ++ b.regWords 0x10400 0x10420 ++ b.regWords 0x11000 0x11C00
  | 0x0B => b.regWords 0x20000 0x20300 ++ [(b.readReg CDC_STAT).toNat]
  | 0x0C => b.regWords 0x30000 0x30120
  | 0x0D => b.regWords 0x38000 0x38020 ++ b.regWords 0x38040 0x380C0 ++ b.regWords 0x38100 0x38300 ++
      b.regWords 0x38400 0x38600 ++ b.regWords 0x38600 0x3860C
  | 0x0E => b.regWords 0x2010 0x2120
  | 0x0F => (List.range 171).flatMap b.ledgerWords
  | _ => b.regWords 0x2700 0x270C ++ b.regWords 0x2800 0x2BE0

/-- The port of a unit answers: it lies on VDD_AO, or its unit is powered and out of reset (R427). -/
def Block.portAnswers (b : Block) (u : Nat) : Bool :=
  u == unitId 0x9 0 || (b.pins.vddFk && !b.inReset && !b.underReset u)

/-- A unit that is out of service is not visited (R426). -/
def Block.visited (b : Block) (u : Nat) : Bool := unitClass u == 0x0 || unitClass u == 0x8 || unitClass u == 0x9 || b.inService u

/-- The bytes of words. -/
def wordBytes (ws : List Nat) : List Byte := ws.flatMap (leBytes 4)

/-- The records that a dump visits, with their place in Table 15.11 and whether they get an answer. -/
def Block.dumpVisits (b : Block) (noAns : List Nat) : List ((Nat × Nat) × Bool) :=
  (dumpRecords.zipIdx.filter fun e => b.visited e.1.2).map fun e => (e.1, b.portAnswers e.1.2 && !noAns.contains e.2)

/-- One record; when its port was frozen is not defined. (DEDUCED, log entry 71) -/
def Block.recordWords (b : Block) (ticks : Nat) (r : (Nat × Nat) × Bool) : List Nat :=
  let ws := if r.2 then b.payload r.1 else []
  [r.1.2 + r.1.1 * 2 ^ 16 + (if r.2 then stDone else stNoAnswer) * 2 ^ 24, 4 * ws.length, b.fresh % (ticks + 1), 0] ++ ws

/-- The records of a dump. -/
def Block.dumpBody (b : Block) (ticks : Nat) : List ((Nat × Nat) × Bool) → Block × List Nat
  | [] => (b, [])
  | r :: rs =>
    let ws := b.recordWords ticks r
    let x := b.used.dumpBody ticks rs
    (x.1, ws ++ x.2)

/-- The dump header (Table 15.10) without its CRC. -/
def dumpHead (d : DumpRun) (bytes records ticks noAns : Nat) : List Nat :=
  [0x504D5544, 1 + d.trigger * 2 ^ 16, bytes, records, bits d.time 0 32, bits d.time 32 32, ticks, noAns] ++
    d.heads.map (fun w => w.toNat) ++ [0, 0]

/-- The dump is complete, and DMP_STAT tells its trigger (R426 to R430, Table 15.9). (DEDUCED, log entry 71) -/
def Block.dumpDone (b : Block) (d : DumpRun) (ticks : Nat) : Block :=
  let rs := b.dumpVisits d.noAns
  let x := b.dumpBody ticks rs
  let head := wordBytes (dumpHead d (64 + 4 * x.2.length) rs.length ticks (rs.filter fun r => !r.2).length)
  let all := head ++ leBytes 4 (crc32c head) ++ wordBytes x.2
  let b := x.1.setAo fun a => { a with dump := memWrite a.dump 0 all, dumpRun := none }
  (((b.wf DMP_STAT 31 1 1).wf DMP_STAT 30 1 0).wf DMP_STAT 27 3 d.trigger).causeFault 5

/-- The control island is defined and out of cold reset. -/
def Block.aoRuns (b : Block) : Bool := b.pins.vddAo && b.pins.coldN

/-- DUMP_START (R428): TRIGGER 2, a write of DMP_CTRL.GO, or 4, OBS_CTRL.GO. The hang detector and a lasting fault start
theirs themselves (R425, R409). (DEDUCED, log entry 71) -/
def execDumpStart (k : Nat) (s : State) : Host.Outcome State Fault Refusal :=
  s.upd fun b => b.guard (b.aoRuns && (k == 2 || k == 4)) (·.dumpTrigger k)

/-- OBS_PORT_TIMEOUT (R427): the port of the k-th record of Table 15.11. -/
def execObsPortTimeout (k : Nat) (s : State) : Host.Outcome State Fault Refusal :=
  s.upd fun b => b.guard (b.aoRuns && k < 126 && (dumpRecords.getD k (0, 0x9000)).2 ≠ 0x9000) fun b =>
    b.setAo fun a => { a with dumpRun := a.dumpRun.map fun d => { d with noAns := d.noAns ++ [k] } }

/-- DUMP_COMPLETE (R427): `ticks` is the dump's duration in 10 ns ticks. -/
def execDumpComplete (ticks : Nat) (s : State) : Host.Outcome State Fault Refusal :=
  s.upd fun b => b.guard b.aoRuns fun b => match b.ao.dumpRun with
    | some d => b.dumpDone d ticks
    | none => b

/-! The TAP (R67, Table 2.16, R431). -/

def Block.setTap (b : Block) (f : Tap → Tap) : Block := b.setAo fun a => { a with tap := f a.tap }

/-- The IDCODE word (Table 2.16): [31:28] 0x3, [27:12] 0x0F1C, [11:1] the manufacturer code of the straps, [0] 1. -/
def Block.idcode (b : Block) : Word := BitVec.ofNat 32 (0x3 * 2 ^ 28 + 0x0F1C * 2 ^ 12 + b.ao.straps.mfr.toNat * 2 + 1)

/-- OBS_CTRL as a Capture-DR finds it (R431): BUSY, VALID and ADDR. -/
def Block.obsWord (b : Block) : Word :=
  BitVec.ofNat 32 (bits (b.reg DMP_STAT) 30 1 * 2 ^ 30 + bits (b.reg DMP_STAT) 31 1 * 2 ^ 29 + b.ao.tap.addr.toNat)

/-- The data register that the loaded instruction selects, as a Capture-DR finds it (R67, R431): IDCODE, the observer
chain's words, or the one bit of BYPASS. -/
def Block.tapDr (b : Block) : Word :=
  if b.ao.tap.ir = 0x01 then b.idcode
  else if b.ao.tap.ir = 0x40 then b.obsWord
  else if b.ao.tap.ir = 0x41 then b.ao.tap.data
  else 0

/-- TAP_RESET (R67): IDCODE is selected. -/
def execTapReset (s : State) : Host.Outcome State Fault Refusal :=
  s.upd fun b => b.guard b.pins.vddAo (·.setTap fun t => { t with ir := 0x01 })

/-- An opcode that Table 2.16 does not list acts as BYPASS. -/
def tapOp (op : Byte) : Byte := if op = 0x01 ∨ op = 0x40 ∨ op = 0x41 then op else 0xFF

/-- TAP_INSTRUCTION (R67). -/
def execTapInstruction (op : Byte) (s : State) : Host.Outcome State Fault Refusal :=
  s.upd fun b => b.guard b.aoRuns (·.setTap fun t => { t with ir := tapOp op })

/-- An Update-DR of OBS_CTRL (R431): a CLEAR takes effect before a GO of the same word. (DEDUCED, log entry 71) -/
def Block.obsCtrl (b : Block) (data : Word) : Block :=
  let b := b.setTap fun t => { t with addr := data.setWidth 16 }
  let b := b.guard (bit data 28) (·.wf DMP_STAT 31 1 0)
  b.guard (bit data 31) (·.dumpTrigger 4)

/-- OBS_CTRL_UPDATE (R431). -/
def execObsCtrlUpdate (data : Word) (s : State) : Host.Outcome State Fault Refusal :=
  s.upd fun b => b.guard (b.aoRuns && b.ao.tap.ir == 0x40) (·.obsCtrl data)

/-- A Capture-DR of OBS_DATA (R431). -/
def Block.obsData (b : Block) : Block :=
  let w := BitVec.ofNat 32 (memNat b.ao.dump (4 * b.ao.tap.addr.toNat) 4)
  b.setTap fun t => { t with data := w, addr := t.addr + 1 }

/-- OBS_DATA_CAPTURE (R431). -/
def execObsDataCapture (s : State) : Host.Outcome State Fault Refusal :=
  s.upd fun b => b.guard (b.aoRuns && b.ao.tap.ir == 0x41) Block.obsData

end Sys2Proof.Machine
end

