-- ==== Sys2Proof/Machine/RegisterPort.lean ====
section
/-! DEFINITION. The register port over the whole window (Table 4.5): what a write of any offset does, what a read of it returns and captures, the accesses that time out, and those that `fk_hclk` has held. -/

namespace Sys2Proof.Machine

/-! Writes. The effect of a register that has a command of its own is that command's. -/

/-- A write-one-to-clear VALID that clears OVERRUN with it (Tables 2.13 and 5.17). -/
def Block.validWrite (b : Block) (o : Nat) (data : Word) : Block :=
  (b.writeReg o data).guard (bit data 31) (·.wf o 30 1 0)

/-- A write of DMP_CTRL (R428): the enables are stored, and GO starts a dump. -/
def Block.dmpWrite (b : Block) (data : Word) : Block :=
  (b.writeReg DMP_CTRL data).guard (bit data 31) (·.dumpTrigger 2)

/-- A write of a register of the control island. -/
def Block.writeAo (b : Block) (o : Nat) (data : Word) : Block :=
  if o = GLB_MERR ∨ o = GLB_EXC_STAT then b.validWrite o data
  else if o = GLB_BYP then b.bypWrite data
  else if 0x1100 ≤ o ∧ o < 0x1190 ∧ o % 0x10 = 0x0 then b.causeClear ((o - 0x1100) / 0x10) data
  else if 0x1100 ≤ o ∧ o < 0x1190 ∧ o % 0x10 = 0x8 then b.causeTest ((o - 0x1100) / 0x10) data
  else if o = RST_CTRL then b.rstWrite data
  else if o = DMP_CTRL then b.dmpWrite data
  else if o = PACE_CTRL then b.paceCtrlWrite data
  else b.writeReg o data

/-- The register pairs that software writes (R15): a `_LO` is staged, a `_HI` commits. -/
def Block.writePair (b : Block) (o : Nat) (data : Word) : Block :=
  if (fkInfo o).any (fun i => i.rw ≠ 0) then (if isLo o then b.stageLo o data else b.commitPair (o - 4) data) else b

/-- A write of a submission queue's register (R381, R389, R391, R392, R394, R400). (DEDUCED, log entry 60) -/
def Block.writeSq (b : Block) (o : Nat) (data : Word) : Block :=
  let n := (o - 0x4000) / 0x40
  let f := o % 0x40
  if f = 0x00 ∨ f = 0x04 then b.guard (b.sqState n == 0) (·.writePair o data)
  else if f = 0x08 then b.guard (b.sqState n == 0) (·.writeReg o data)
  else if f = 0x0C then b.sqCfg n data
  else if f = 0x10 then b.doorbell n
  else if f = 0x14 then b.sqInvalidate n
  else if f = 0x18 then b.sqHeadWrite n data
  else b

/-- A write of a completion ring's register (R398, R399). -/
def Block.writeCr (b : Block) (o : Nat) (data : Word) : Block :=
  let r := (o - 0x5000) / 0x40
  let f := o % 0x40
  if f = 0x00 ∨ f = 0x04 then b.writePair o data
  else if f = 0x08 then b.crSizeWrite r data
  else if f = 0x10 then b.crHeadWrite r data
  else if f = 0x14 then b.crIrqWrite r data
  else b.writeReg o data

/-- A write of a register of the booms, the movers, the landing or the deck channels (Tables 12.2 to 12.5). -/
def Block.writeMv (b : Block) (o : Nat) (data : Word) : Block :=
  if o = 0x8008 ∨ o = 0x800C then b.writePair o data
  else if isMark o then b.boomMark o data
  else if 0x8100 ≤ o ∧ o < 0x8200 ∧ o % 0x20 = 0 then b.boomCfg ((o - 0x8100) / 0x20) data
  else if 0xA000 ≤ o ∧ o % 0x40 = 0x00 then b.dkCtrl ((o - 0xA000) / 0x40) data
  else if 0xA000 ≤ o ∧ o % 0x40 = 0x34 then b.dkRelease ((o - 0xA000) / 0x40) data
  else if 0xA000 ≤ o ∧ (isLo o || isHi o) then b.writePair o data
  else b.writeReg o data

/-- A write of the root window (R119): entry `k` of the context that XL_CTX_SEL selects. A staged XL_ROOT_LO goes to the
context that is selected at the write of XL_ROOT_HI. (DESIGN CHOICE, log entry 80) -/
def Block.writeRoot (b : Block) (o : Nat) (data : Word) : Block :=
  if o % 8 = 0 then b.stageLo o data
  else
    let c := b.rf XL_CTX_SEL 0 6
    let k := (o - 0xC800) / 8
    let lo := match SMap.find b.fk.stage (o - 4) with
      | some v => v.toNat
      | none => bits (b.root c k) 0 32
    (b.setXl fun t => { t with roots := SMap.set zeroRoot t.roots (c * 64 + k) (BitVec.ofNat 64 (lo + data.toNat * 2 ^ 32)) }).setFk
      fun f => { f with stage := SMap.erase f.stage (o - 4) }

/-- A write of a register of translation (Table 4.9). -/
def Block.writeXl (b : Block) (o : Nat) (data : Word) : Block :=
  if o = XL_INV then b.xlInv data
  else if o = XL_INV_VA_LO ∨ o = XL_INV_VA_LO + 4 then b.writePair o data
  else if isFqConfig o then b.xlFqConfig o data
  else if o = XL_FQ_HEAD then b.xlFqHead data
  else if o = XL_FQ_ACT then b.xlFqAct data
  else if 0xC100 ≤ o ∧ o < 0xC200 then b.xlCtxWrite ((o - 0xC100) / 4) data
  else if 0xC800 ≤ o ∧ o < 0xCA00 then b.writeRoot o data
  else b.writeReg o data

/-- A write of a camera register (Tables 9.2 to 9.4, 2.20). -/
def Block.writeCam (b : Block) (o : Nat) (data : Word) : Block :=
  if 0x10000 ≤ o ∧ o < 0x10300 ∧ o % 0x40 = 0 then b.camPortWrite ((o - 0x10000) / 0x40) data
  else if 0x11000 ≤ o ∧ o < 0x11C00 ∧ o % 0x40 = 0 then b.camCtrlWrite ((o - 0x11000) / 0x40) data
  else if isTableWindow o then b.camTableWrite o data
  else if isTrigReg o then b.trigWrite o data
  else b.writeReg o data

/-- A write of a log-store register (Table 11.11). -/
def Block.writeLs (b : Block) (o : Nat) (data : Word) : Block :=
  if o = LS_CMD then b.lsCmdWrite data
  else if o = LS_STR_CFG then
    let s := b.rf LS_STR_SEL 0 5
    b.setLs fun l => { l with bound := SMap.set zeroNat l.bound s (data &&& 0x7F010000).toNat }
  else if isLo o || isHi o then b.writePair o data
  else b.writeReg o data

/-- A write of a flume register (Table 13.6); FL_RXBUF keeps its value while FL_RXUSED is not 0. Packets that waited for what the
write gives go on. -/
def Block.writeFl (b : Block) (o : Nat) (data : Word) : Block :=
  if o = FL_CFG then b.flCfg data
  else if o = FL_RXBUF then (b.guard (b.rxUsed == 0) (·.writeReg o data)).flSettle
  else if 0x38400 ≤ o ∧ o < 0x38600 ∧ o % 0x20 = 0x00 then b.rxpCfg ((o - 0x38400) / 0x20) data
  else if 0x38400 ≤ o ∧ o < 0x38600 ∧ o % 0x20 = 0x18 then b.rxRelease ((o - 0x38400) / 0x20) data
  else if isLo o || isHi o then b.writePair o data
  else (b.writeReg o data).flSettle

/-- A write of a tally register (Table 16.2). -/
def Block.writeTly (b : Block) (o : Nat) (data : Word) : Block :=
  let i := (o - 0x3C000) / 0x10
  if o < 0x3D000 ∧ o % 0x10 = 0 then b.tallyCfg i data
  else if o < 0x3D000 ∧ o % 0x10 = 4 then b.tallyLo i data
  else if o < 0x3D000 ∧ o % 0x10 = 8 then b.tallyHi i data
  else if o = TLY_CTRL then b.tallyCtrl data
  else if o = TLY_WIN then b.tallyWin data
  else b.writeReg o data

/-- A write of a register on VDD_FK. -/
def Block.writeFk (b : Block) (o : Nat) (data : Word) : Block :=
  if o = SYNC_ADD then b.syncAdd data
  else if o = SYNC_VAL then b.syncVal data
  else if o = SYNC_CFG then b.syncCfg data
  else if o = SYNC_POOL then b.syncPool data
  else if o = LDG_SEL then b.ldgSel data
  else if 0x4000 ≤ o ∧ o < 0x5000 then b.writeSq o data
  else if 0x5000 ≤ o ∧ o < 0x5400 then b.writeCr o data
  else if 0x8000 ≤ o ∧ o < 0xB000 then b.writeMv o data
  else if 0xC000 ≤ o ∧ o < 0x10000 then b.writeXl o data
  else if 0x10000 ≤ o ∧ o < 0x20000 then b.writeCam o data
  else if 0x30000 ≤ o ∧ o < 0x38000 then b.writeLs o data
  else if 0x38000 ≤ o ∧ o < 0x3C000 then b.writeFl o data
  else if 0x3C000 ≤ o ∧ o < 0x40000 then b.writeTly o data
  else b.writeReg o data

/-- A word enters the program store (R105, R451). -/
def Block.pstoreWrite (b : Block) (o : Nat) (data : Word) : Block :=
  b.setFk fun k => { k with pstore := memWrite k.pstore (b.pstoreOff o) (leBytes 4 data.toNat) }

/-- What a write of an offset does (R13 to R15, R65): the dump SRAM, the stand windows and offsets without a register
ignore it. -/
def Block.writeAt (b : Block) (o : Nat) (data : Word) : Block :=
  if isAo o then b.writeAo o data
  else if isPstoreWindow o then b.pstoreWrite o data
  else if (fkInfo o).isSome || isTableWindow o then b.writeFk o data
  else b

/-- The window offset that the port sees: `fk_h_addr` carries bits [19:2] (Table 2.14). -/
def wordOff (o : BitVec 20) : Nat := o.toNat / 4 * 4

/-- A write access. (DEDUCED, log entry 10) -/
def Block.hostWrite (b : Block) (off : BitVec 20) (data : Word) : Block :=
  b.portWrite (wordOff off) data (·.writeAt (wordOff off) data)

/-! Reads. -/

/-- The value that an earlier read has captured for this one (R16, R339). -/
def Block.captured (b : Block) (o : Nat) : Option Word := SMap.find b.bus.cap o

/-- What a read captures and uses up: the high half of a pair, IN_USE of a boom, and the open value of GLB_BYP.CAUSE.
(DEDUCED, log entry 10) -/
def Block.readEffect (b : Block) (o : Nat) : Block :=
  if isLo o then b.setBus fun u => { u with cap := SMap.put u.cap (o + 4) (b.readReg (o + 4)) }
  else if 0x8100 ≤ o ∧ o < 0x8200 ∧ o % 0x20 = 0x14 then b.capInUse ((o - 0x8100) / 0x20)
  else if o = GLB_BYP then b.used
  else b.setBus fun u => { u with cap := SMap.erase u.cap o }

/-- A read of a stand debug window fails where the stand cannot answer (R435). -/
def Block.standMute (b : Block) (o : Nat) : Bool := isStandWindow o && b.portCase o == .go && (b.standWord o).isNone

/-- A read access (R16, R65). (DEDUCED, log entry 10) -/
def Block.hostRead (b : Block) (off : BitVec 20) : Block :=
  let o := wordOff off
  if b.standMute o then b.answer 0 true
  else b.portRead o ((b.captured o).getD (b.readReg o)) (·.readEffect o)

/-- An access that `fk_hclk` has held. -/
def Block.serve (b : Block) (a : Access) : Block := if a.write then b.hostWrite a.off a.data else b.hostRead a.off

/-! The commands. -/

/-- REGISTER_WRITE (R64). -/
def execRegisterWrite (off : BitVec 20) (data : Word) (s : State) : Host.Outcome State Fault Refusal :=
  s.upd (·.hostWrite off data)
/-- HI_WRITE_COMMIT (R15). -/
def execHiWriteCommit (off : BitVec 20) (data : Word) (s : State) : Host.Outcome State Fault Refusal :=
  s.upd fun b => b.guard (isHi (wordOff off)) (·.hostWrite off data)
/-- LO_READ_CAPTURE (R16); a read of any other offset too. -/
def execLoReadCapture (off : BitVec 20) (s : State) : Host.Outcome State Fault Refusal := s.upd (·.hostRead off)

/-- The target may fail to answer: it is no register of the control island, which answers within 8 cycles (R65). -/
def Block.mayTimeOut (b : Block) (o : Nat) : Bool := b.portCase o == .go && !onAo o

/-- REGISTER_ACCESS_TIMEOUT (R65): a write has no effect. -/
def execRegisterAccessTimeout (_wr : Bool) (off : BitVec 20) (s : State) : Host.Outcome State Fault Refusal :=
  s.upd fun b => b.guard (b.mayTimeOut (wordOff off)) (·.answer 0 true)

/-- `fk_hclk` runs again: the held accesses complete in the order in which the host made them (R64, R452).
(DEDUCED, log entry 11) -/
def Block.hclkRestart (b : Block) : Block :=
  let held := b.bus.held
  ((b.setPins fun p => { p with hclkOn := true }).setBus fun u => { u with held := [] }).each held Block.serve

/-- HCLK_RESTART (R452). -/
def execHclkRestart (s : State) : Host.Outcome State Fault Refusal := s.upd Block.hclkRestart

/-- PSTORE_WINDOW_WRITE (R451). -/
def execPstoreWindowWrite (off : BitVec 20) (data : Word) (s : State) : Host.Outcome State Fault Refusal :=
  s.upd fun b => b.guard (isPstoreWindow (wordOff off)) (·.hostWrite off data)

/-! Idle (DESIGN CHOICE, log entry 1). -/

/-- The oldest waiting link-control byte of a link goes out while `fk_fclk` runs (R47, R361: one byte in 8 fclk cycles).
(DESIGN CHOICE, log entry 1) -/
def Block.llcSend (b : Block) (d : Nat) : Block := b.guard (b.linkUp d) (·.setLink d fun l => { l with llc := l.llc.drop 1 })

/-- Step on an empty queue: 10 ns pass. Each link sends a link-control byte, and the TICKS event of the tally counts one
(Table 16.1). (DESIGN CHOICE, log entry 1) -/
def Block.tick (b : Block) : Block := b.whenLive fun b => (b.each [0, 1] Block.llcSend).tally 0x31 0 none 1

end Sys2Proof.Machine
end

