-- ==== Sys2Proof/Machine/Dispatch.lean ====
section
/-! DEFINITION. Every command and its meaning: one arm per constructor of Instr. -/

namespace Sys2Proof.Machine

/-- The effect of a command on everything but the queue. -/
def exec (i : Instr) (s : State) : Host.Outcome State Fault Refusal :=
  match i with
  | .coldResetAssert => Sys2Proof.Machine.execColdResetAssert s
  | .coldResetRelease st => Sys2Proof.Machine.execColdResetRelease st s
  | .warmResetAssert => Sys2Proof.Machine.execWarmResetAssert s
  | .warmResetRelease => Sys2Proof.Machine.execWarmResetRelease s
  | .pwrokRise => Sys2Proof.Machine.execPwrokRise s
  | .pwrokFall => Sys2Proof.Machine.execPwrokFall s
  | .vddFkLoss => Sys2Proof.Machine.execVddFkLoss s
  | .vddAoExcursion => Sys2Proof.Machine.execVddAoExcursion s
  | .blockDomainResetEntry => Sys2Proof.Machine.execBlockDomainResetEntry s
  | .blockDomainResetExit => Sys2Proof.Machine.execBlockDomainResetExit s
  | .selfTestDone r => Sys2Proof.Machine.execSelfTestDone r s
  | .pfailAssert => Sys2Proof.Machine.execPfailAssert s
  | .pfailDeassert => Sys2Proof.Machine.execPfailDeassert s
  | .registerWrite off data => Sys2Proof.Machine.execRegisterWrite off data s
  | .hiWriteCommit off data => Sys2Proof.Machine.execHiWriteCommit off data s
  | .loReadCapture off => Sys2Proof.Machine.execLoReadCapture off s
  | .registerAccessTimeout wr off => Sys2Proof.Machine.execRegisterAccessTimeout wr off s
  | .hclkRestart => Sys2Proof.Machine.execHclkRestart s
  | .timebaseSample now => Sys2Proof.Machine.execTimebaseSample now s
  | .tbClkRestart now => Sys2Proof.Machine.execTbClkRestart now s
  | .triggerRise k => Sys2Proof.Machine.execTriggerRise k s
  | .triggerFall k => Sys2Proof.Machine.execTriggerFall k s
  | .camTrigWrite off data => Sys2Proof.Machine.execCamTrigWrite off data s
  | .memReadResponse chan tag code data => Sys2Proof.Machine.execMemReadResponse chan tag code data s
  | .memWriteAck chan tag code => Sys2Proof.Machine.execMemWriteAck chan tag code s
  | .bypassClose => Sys2Proof.Machine.execBypassClose s
  | .bypassOpen => Sys2Proof.Machine.execBypassOpen s
  | .glbBypWrite data => Sys2Proof.Machine.execGlbBypWrite data s
  | .tapReset => Sys2Proof.Machine.execTapReset s
  | .tapInstruction op => Sys2Proof.Machine.execTapInstruction op s
  | .obsCtrlUpdate data => Sys2Proof.Machine.execObsCtrlUpdate data s
  | .obsDataCapture => Sys2Proof.Machine.execObsDataCapture s
  | .paceWindowEnd beats => Sys2Proof.Machine.execPaceWindowEnd beats s
  | .paceClrMin data => Sys2Proof.Machine.execPaceClrMin data s
  | .pstoreWindowWrite off data => Sys2Proof.Machine.execPstoreWindowWrite off data s
  | .syncAddWrite data => Sys2Proof.Machine.execSyncAddWrite data s
  | .syncValWrite data => Sys2Proof.Machine.execSyncValWrite data s
  | .syncCfgWrite data => Sys2Proof.Machine.execSyncCfgWrite data s
  | .syncPoolWrite data => Sys2Proof.Machine.execSyncPoolWrite data s
  | .xlInvGo data => Sys2Proof.Machine.execXlInvGo data s
  | .xlInvDone => Sys2Proof.Machine.execXlInvDone s
  | .xlCtxEnable c data => Sys2Proof.Machine.execXlCtxEnable c data s
  | .contextTeardown c data => Sys2Proof.Machine.execContextTeardown c data s
  | .teardownComplete c us => Sys2Proof.Machine.execTeardownComplete c us s
  | .translationWalk kind n va write code => Sys2Proof.Machine.execTranslationWalk kind n va write code s
  | .fidWaitGrant => Sys2Proof.Machine.execFidWaitGrant s
  | .faultRecordWrite code => Sys2Proof.Machine.execFaultRecordWrite code s
  | .xlFqResume data => Sys2Proof.Machine.execXlFqResume data s
  | .xlFqAbort data => Sys2Proof.Machine.execXlFqAbort data s
  | .xlFqHeadWrite data => Sys2Proof.Machine.execXlFqHeadWrite data s
  | .xlFqConfigWrite off data => Sys2Proof.Machine.execXlFqConfigWrite off data s
  | .jobStart n => Sys2Proof.Machine.execJobStart n s
  | .threadStart j => Sys2Proof.Machine.execThreadStart j s
  | .jobComplete j => Sys2Proof.Machine.execJobComplete j s
  | .add th f => Sys2Proof.Machine.execAdd th f s
  | .sub th f => Sys2Proof.Machine.execSub th f s
  | .and th f => Sys2Proof.Machine.execAnd th f s
  | .or th f => Sys2Proof.Machine.execOr th f s
  | .xor th f => Sys2Proof.Machine.execXor th f s
  | .sll th f => Sys2Proof.Machine.execSll th f s
  | .srl th f => Sys2Proof.Machine.execSrl th f s
  | .sra th f => Sys2Proof.Machine.execSra th f s
  | .mul th f => Sys2Proof.Machine.execMul th f s
  | .mulhs th f => Sys2Proof.Machine.execMulhs th f s
  | .mulhu th f => Sys2Proof.Machine.execMulhu th f s
  | .slt th f => Sys2Proof.Machine.execSlt th f s
  | .sltu th f => Sys2Proof.Machine.execSltu th f s
  | .seq th f => Sys2Proof.Machine.execSeq th f s
  | .min th f => Sys2Proof.Machine.execMin th f s
  | .max th f => Sys2Proof.Machine.execMax th f s
  | .minu th f => Sys2Proof.Machine.execMinu th f s
  | .maxu th f => Sys2Proof.Machine.execMaxu th f s
  | .clz th f => Sys2Proof.Machine.execClz th f s
  | .ctz th f => Sys2Proof.Machine.execCtz th f s
  | .popc th f => Sys2Proof.Machine.execPopc th f s
  | .addi th f => Sys2Proof.Machine.execAddi th f s
  | .andi th f => Sys2Proof.Machine.execAndi th f s
  | .ori th f => Sys2Proof.Machine.execOri th f s
  | .xori th f => Sys2Proof.Machine.execXori th f s
  | .slli th f => Sys2Proof.Machine.execSlli th f s
  | .srli th f => Sys2Proof.Machine.execSrli th f s
  | .srai th f => Sys2Proof.Machine.execSrai th f s
  | .slti th f => Sys2Proof.Machine.execSlti th f s
  | .sltiu th f => Sys2Proof.Machine.execSltiu th f s
  | .li th f => Sys2Proof.Machine.execLi th f s
  | .nop th f => Sys2Proof.Machine.execNop th f s
  | .endThread th f => Sys2Proof.Machine.execEndThread th f s
  | .fence th f => Sys2Proof.Machine.execFence th f s
  | .rdtime th f => Sys2Proof.Machine.execRdtime th f s
  | .rdtly th f => Sys2Proof.Machine.execRdtly th f s
  | .tstat th f => Sys2Proof.Machine.execTstat th f s
  | .trap th f => Sys2Proof.Machine.execTrap th f s
  | .pand th f => Sys2Proof.Machine.execPand th f s
  | .por th f => Sys2Proof.Machine.execPor th f s
  | .pxor th f => Sys2Proof.Machine.execPxor th f s
  | .pandn th f => Sys2Proof.Machine.execPandn th f s
  | .pnot th f => Sys2Proof.Machine.execPnot th f s
  | .pmovs th f => Sys2Proof.Machine.execPmovs th f s
  | .ptos th f => Sys2Proof.Machine.execPtos th f s
  | .pfirst th f => Sys2Proof.Machine.execPfirst th f s
  | .pcnt th f => Sys2Proof.Machine.execPcnt th f s
  | .vadd th f => Sys2Proof.Machine.execVadd th f s
  | .vsub th f => Sys2Proof.Machine.execVsub th f s
  | .vmul th f => Sys2Proof.Machine.execVmul th f s
  | .vmulhs th f => Sys2Proof.Machine.execVmulhs th f s
  | .vmulhu th f => Sys2Proof.Machine.execVmulhu th f s
  | .vmin th f => Sys2Proof.Machine.execVmin th f s
  | .vmax th f => Sys2Proof.Machine.execVmax th f s
  | .vminu th f => Sys2Proof.Machine.execVminu th f s
  | .vmaxu th f => Sys2Proof.Machine.execVmaxu th f s
  | .vand th f => Sys2Proof.Machine.execVand th f s
  | .vor th f => Sys2Proof.Machine.execVor th f s
  | .vxor th f => Sys2Proof.Machine.execVxor th f s
  | .vsll th f => Sys2Proof.Machine.execVsll th f s
  | .vsrl th f => Sys2Proof.Machine.execVsrl th f s
  | .vsra th f => Sys2Proof.Machine.execVsra th f s
  | .vadds th f => Sys2Proof.Machine.execVadds th f s
  | .vaddus th f => Sys2Proof.Machine.execVaddus th f s
  | .vsubs th f => Sys2Proof.Machine.execVsubs th f s
  | .vsubus th f => Sys2Proof.Machine.execVsubus th f s
  | .vavgu th f => Sys2Proof.Machine.execVavgu th f s
  | .vabsd th f => Sys2Proof.Machine.execVabsd th f s
  | .vceq th f => Sys2Proof.Machine.execVceq th f s
  | .vclt th f => Sys2Proof.Machine.execVclt th f s
  | .vcltu th f => Sys2Proof.Machine.execVcltu th f s
  | .vsplat th f => Sys2Proof.Machine.execVsplat th f s
  | .vext th f => Sys2Proof.Machine.execVext th f s
  | .vins th f => Sys2Proof.Machine.execVins th f s
  | .vperm th f => Sys2Proof.Machine.execVperm th f s
  | .vredadd th f => Sys2Proof.Machine.execVredadd th f s
  | .vmov th f => Sys2Proof.Machine.execVmov th f s
  | .vfadd th f => Sys2Proof.Machine.execVfadd th f s
  | .vfsub th f => Sys2Proof.Machine.execVfsub th f s
  | .vfmul th f => Sys2Proof.Machine.execVfmul th f s
  | .vfma th f => Sys2Proof.Machine.execVfma th f s
  | .vfmin th f => Sys2Proof.Machine.execVfmin th f s
  | .vfmax th f => Sys2Proof.Machine.execVfmax th f s
  | .vfclt th f => Sys2Proof.Machine.execVfclt th f s
  | .vfceq th f => Sys2Proof.Machine.execVfceq th f s
  | .vfcvt th f => Sys2Proof.Machine.execVfcvt th f s
  | .vfcvti th f => Sys2Proof.Machine.execVfcvti th f s
  | .vfrcp th f => Sys2Proof.Machine.execVfrcp th f s
  | .vfrsq th f => Sys2Proof.Machine.execVfrsq th f s
  | .ldB th f => Sys2Proof.Machine.execLdB th f s
  | .ldBu th f => Sys2Proof.Machine.execLdBu th f s
  | .ldH th f => Sys2Proof.Machine.execLdH th f s
  | .ldHu th f => Sys2Proof.Machine.execLdHu th f s
  | .ldW th f => Sys2Proof.Machine.execLdW th f s
  | .ldWu th f => Sys2Proof.Machine.execLdWu th f s
  | .ldD th f => Sys2Proof.Machine.execLdD th f s
  | .stB th f => Sys2Proof.Machine.execStB th f s
  | .stH th f => Sys2Proof.Machine.execStH th f s
  | .stW th f => Sys2Proof.Machine.execStW th f s
  | .stD th f => Sys2Proof.Machine.execStD th f s
  | .vld th f => Sys2Proof.Machine.execVld th f s
  | .vst th f => Sys2Proof.Machine.execVst th f s
  | .aadd th f => Sys2Proof.Machine.execAadd th f s
  | .aswap th f => Sys2Proof.Machine.execAswap th f s
  | .acas th f => Sys2Proof.Machine.execAcas th f s
  | .amaxu th f => Sys2Proof.Machine.execAmaxu th f s
  | .aminu th f => Sys2Proof.Machine.execAminu th f s
  | .beq th f => Sys2Proof.Machine.execBeq th f s
  | .bne th f => Sys2Proof.Machine.execBne th f s
  | .blt th f => Sys2Proof.Machine.execBlt th f s
  | .bge th f => Sys2Proof.Machine.execBge th f s
  | .bltu th f => Sys2Proof.Machine.execBltu th f s
  | .bgeu th f => Sys2Proof.Machine.execBgeu th f s
  | .bpany th f => Sys2Proof.Machine.execBpany th f s
  | .bpnone th f => Sys2Proof.Machine.execBpnone th f s
  | .bpall th f => Sys2Proof.Machine.execBpall th f s
  | .jal th f => Sys2Proof.Machine.execJal th f s
  | .jalr th f => Sys2Proof.Machine.execJalr th f s
  | .signal th f => Sys2Proof.Machine.execSignal th f s
  | .wait th f => Sys2Proof.Machine.execWait th f s
  | .srd th f => Sys2Proof.Machine.execSrd th f s
  | .epochGet th f => Sys2Proof.Machine.execEpochGet th f s
  | .epochSet th f => Sys2Proof.Machine.execEpochSet th f s
  | .tbind th f => Sys2Proof.Machine.execTbind th f s
  | .tadv th f => Sys2Proof.Machine.execTadv th f s
  | .trel th f => Sys2Proof.Machine.execTrel th f s
  | .balloc th f => Sys2Proof.Machine.execBalloc th f s
  | .ballocn th f => Sys2Proof.Machine.execBallocn th f s
  | .bfree th f => Sys2Proof.Machine.execBfree th f s
  | .mmaMxi8 t => Sys2Proof.Machine.execMmaMxi8 t s
  | .mmaE4m3 t => Sys2Proof.Machine.execMmaE4m3 t s
  | .mmaE5m2 t => Sys2Proof.Machine.execMmaE5m2 t s
  | .mmaE3m2 t => Sys2Proof.Machine.execMmaE3m2 t s
  | .mmaE2m3 t => Sys2Proof.Machine.execMmaE2m3 t s
  | .mmaE2m1 t => Sys2Proof.Machine.execMmaE2m1 t s
  | .mmaI8 t => Sys2Proof.Machine.execMmaI8 t s
  | .mmaBf16 t => Sys2Proof.Machine.execMmaBf16 t s
  | .mmaF16 t => Sys2Proof.Machine.execMmaF16 t s
  | .mmaZero t => Sys2Proof.Machine.execMmaZero t s
  | .mmaStore t => Sys2Proof.Machine.execMmaStore t s
  | .winConv t => Sys2Proof.Machine.execWinConv t s
  | .winMax t => Sys2Proof.Machine.execWinMax t s
  | .winAvg t => Sys2Proof.Machine.execWinAvg t s
  | .winMin t => Sys2Proof.Machine.execWinMin t s
  | .winSum t => Sys2Proof.Machine.execWinSum t s
  | .rsmp t => Sys2Proof.Machine.execRsmp t s
  | .warp t => Sys2Proof.Machine.execWarp t s
  | .skid t => Sys2Proof.Machine.execSkid t s
  | .gather t => Sys2Proof.Machine.execGather t s
  | .scatter t => Sys2Proof.Machine.execScatter t s
  | .takeFrame t => Sys2Proof.Machine.execTakeFrame t s
  | .takeRegion t => Sys2Proof.Machine.execTakeRegion t s
  | .takeWaitTimeout id => Sys2Proof.Machine.execTakeWaitTimeout id s
  | .codecOpen t => Sys2Proof.Machine.execCodecOpen t s
  | .codecClose t => Sys2Proof.Machine.execCodecClose t s
  | .decode t => Sys2Proof.Machine.execDecode t s
  | .encode t => Sys2Proof.Machine.execEncode t s
  | .encodeSliceDone id off => Sys2Proof.Machine.execEncodeSliceDone id off s
  | .rnext t => Sys2Proof.Machine.execRnext t s
  | .wrap t => Sys2Proof.Machine.execWrap t s
  | .codecPipeStart id => Sys2Proof.Machine.execCodecPipeStart id s
  | .logrd t => Sys2Proof.Machine.execLogrd t s
  | .logwr t => Sys2Proof.Machine.execLogwr t s
  | .slotPlace t => Sys2Proof.Machine.execSlotPlace t s
  | .slotVoid t => Sys2Proof.Machine.execSlotVoid t s
  | .commandAccept id => Sys2Proof.Machine.execCommandAccept id s
  | .commandEnd id => Sys2Proof.Machine.execCommandEnd id s
  | .camPortCfgWrite p data => Sys2Proof.Machine.execCamPortCfgWrite p data s
  | .camPortClr p data => Sys2Proof.Machine.execCamPortClr p data s
  | .camStreamEnable sn data => Sys2Proof.Machine.execCamStreamEnable sn data s
  | .camStreamDisable sn data => Sys2Proof.Machine.execCamStreamDisable sn data s
  | .camStreamCommit sn data => Sys2Proof.Machine.execCamStreamCommit sn data s
  | .camTableWrite off data => Sys2Proof.Machine.execCamTableWrite off data s
  | .camFrameStart p vc wc => Sys2Proof.Machine.execCamFrameStart p vc wc s
  | .camFrameAdmit sn => Sys2Proof.Machine.execCamFrameAdmit sn s
  | .camFrameStaleDrop sn => Sys2Proof.Machine.execCamFrameStaleDrop sn s
  | .camImageLine p vc dt bytes => Sys2Proof.Machine.execCamImageLine p vc dt bytes s
  | .camFrameEnd p vc wc => Sys2Proof.Machine.execCamFrameEnd p vc wc s
  | .camPacketDiscard p vc dt => Sys2Proof.Machine.execCamPacketDiscard p vc dt s
  | .camHeaderError p kind vc => Sys2Proof.Machine.execCamHeaderError p kind vc s
  | .camSotError p inPacket vc => Sys2Proof.Machine.execCamSotError p inPacket vc s
  | .feLinePick lane => Sys2Proof.Machine.execFeLinePick lane s
  | .feLineDone lane => Sys2Proof.Machine.execFeLineDone lane s
  | .pixelLaneFault lane => Sys2Proof.Machine.execPixelLaneFault lane s
  | .lsMount scan => Sys2Proof.Machine.execLsMount scan s
  | .lsUnmount => Sys2Proof.Machine.execLsUnmount s
  | .lsFormat scan => Sys2Proof.Machine.execLsFormat scan s
  | .lsCheckpoint => Sys2Proof.Machine.execLsCheckpoint s
  | .lsCreate => Sys2Proof.Machine.execLsCreate s
  | .lsDelete => Sys2Proof.Machine.execLsDelete s
  | .lsTrim => Sys2Proof.Machine.execLsTrim s
  | .lsCmdDone us => Sys2Proof.Machine.execLsCmdDone us s
  | .lsFlushTimeout sn => Sys2Proof.Machine.execLsFlushTimeout sn s
  | .stripeUnitProgram sn => Sys2Proof.Machine.execStripeUnitProgram sn s
  | .nandProgramDone op ok => Sys2Proof.Machine.execNandProgramDone op ok s
  | .nandEraseDone op ok => Sys2Proof.Machine.execNandEraseDone op ok s
  | .nandReadDone id got => Sys2Proof.Machine.execNandReadDone id got s
  | .nandBusTimeout op => Sys2Proof.Machine.execNandBusTimeout op s
  | .lsAutoCheckpoint => Sys2Proof.Machine.execLsAutoCheckpoint s
  | .lsAgeCheck => Sys2Proof.Machine.execLsAgeCheck s
  | .reclaimStart dst => Sys2Proof.Machine.execReclaimStart dst s
  | .reclaimCommit => Sys2Proof.Machine.execReclaimCommit s
  | .reclaimDone => Sys2Proof.Machine.execReclaimDone s
  | .boomCfgWrite k data => Sys2Proof.Machine.execBoomCfgWrite k data s
  | .boomWatermarkWrite off data => Sys2Proof.Machine.execBoomWatermarkWrite off data s
  | .boomFreeRead k => Sys2Proof.Machine.execBoomFreeRead k s
  | .deckChannelEnable c data => Sys2Proof.Machine.execDeckChannelEnable c data s
  | .deckChannelDisable c data => Sys2Proof.Machine.execDeckChannelDisable c data s
  | .deckAdvance c data => Sys2Proof.Machine.execDeckAdvance c data s
  | .dkRelease c data => Sys2Proof.Machine.execDkRelease c data s
  | .deckOpen c => Sys2Proof.Machine.execDeckOpen c s
  | .slotParkRecheck id => Sys2Proof.Machine.execSlotParkRecheck id s
  | .slotCopyDone id ticks => Sys2Proof.Machine.execSlotCopyDone id ticks s
  | .slotDeliver c most => Sys2Proof.Machine.execSlotDeliver c most s
  | .deckClose c most => Sys2Proof.Machine.execDeckClose c most s
  | .stragglerVoid c age => Sys2Proof.Machine.execStragglerVoid c age s
  | .flumeEnable data => Sys2Proof.Machine.execFlumeEnable data s
  | .flumeDisable data => Sys2Proof.Machine.execFlumeDisable data s
  | .linkTrain d => Sys2Proof.Machine.execLinkTrain d s
  | .linkTrained d badOut badIn partner => Sys2Proof.Machine.execLinkTrained d badOut badIn partner s
  | .llcSilenceTimeout d => Sys2Proof.Machine.execLlcSilenceTimeout d s
  | .linkParityError d => Sys2Proof.Machine.execLinkParityError d s
  | .llcCreditReturn d v => Sys2Proof.Machine.execLlcCreditReturn d v s
  | .llcLinkAck d v => Sys2Proof.Machine.execLlcLinkAck d v s
  | .llcReplayRequest d v => Sys2Proof.Machine.execLlcReplayRequest d v s
  | .llcDeliveryAck d flow v node => Sys2Proof.Machine.execLlcDeliveryAck d flow v node s
  | .llcLinkError d v => Sys2Proof.Machine.execLlcLinkError d v s
  | .flumePacketSend n cycles => Sys2Proof.Machine.execFlumePacketSend n cycles s
  | .flumeForward d pk => Sys2Proof.Machine.execFlumeForward d pk s
  | .flumeDataPacket d pk => Sys2Proof.Machine.execFlumeDataPacket d pk s
  | .flumeOpen d pk => Sys2Proof.Machine.execFlumeOpen d pk s
  | .flumeDeckEnd d pk => Sys2Proof.Machine.execFlumeDeckEnd d pk s
  | .flumeAbort d pk => Sys2Proof.Machine.execFlumeAbort d pk s
  | .flumeGap d pk => Sys2Proof.Machine.execFlumeGap d pk s
  | .flumeReport d pk => Sys2Proof.Machine.execFlumeReport d pk s
  | .flumeNotice d pk => Sys2Proof.Machine.execFlumeNotice d pk s
  | .flowAcquire c => Sys2Proof.Machine.execFlowAcquire c s
  | .flowAckTimeout n => Sys2Proof.Machine.execFlowAckTimeout n s
  | .rxRecordWrite r most => Sys2Proof.Machine.execRxRecordWrite r most s
  | .flRxpRel r data => Sys2Proof.Machine.execFlRxpRel r data s
  | .sqDoorbell n data => Sys2Proof.Machine.execSqDoorbell n data s
  | .sqEntryFetch n code => Sys2Proof.Machine.execSqEntryFetch n code s
  | .queueStop n => Sys2Proof.Machine.execQueueStop n s
  | .sqInvalidate n data => Sys2Proof.Machine.execSqInvalidate n data s
  | .sqEnable n data => Sys2Proof.Machine.execSqEnable n data s
  | .sqDisable n data => Sys2Proof.Machine.execSqDisable n data s
  | .sqResume n data => Sys2Proof.Machine.execSqResume n data s
  | .sqPauseWrite n data => Sys2Proof.Machine.execSqPauseWrite n data s
  | .queueOff n => Sys2Proof.Machine.execQueueOff n s
  | .entryNop n => Sys2Proof.Machine.execEntryNop n s
  | .entryRun n => Sys2Proof.Machine.execEntryRun n s
  | .entryFence n => Sys2Proof.Machine.execEntryFence n s
  | .completionWrite r code => Sys2Proof.Machine.execCompletionWrite r code s
  | .crHeadWrite r data => Sys2Proof.Machine.execCrHeadWrite r data s
  | .crSizeWrite r data => Sys2Proof.Machine.execCrSizeWrite r data s
  | .crIrqTimer r => Sys2Proof.Machine.execCrIrqTimer r s
  | .intCauseClear b data => Sys2Proof.Machine.execIntCauseClear b data s
  | .intTest b data => Sys2Proof.Machine.execIntTest b data s
  | .faultDetected f => Sys2Proof.Machine.execFaultDetected f s
  | .stageStall f => Sys2Proof.Machine.execStageStall f s
  | .ledgerBreach k => Sys2Proof.Machine.execLedgerBreach k s
  | .ldgSelWrite data => Sys2Proof.Machine.execLdgSelWrite data s
  | .rstThread data => Sys2Proof.Machine.execRstThread data s
  | .rstEngine data => Sys2Proof.Machine.execRstEngine data s
  | .rstStand data => Sys2Proof.Machine.execRstStand data s
  | .rstSubsystem data => Sys2Proof.Machine.execRstSubsystem data s
  | .rstBlock data => Sys2Proof.Machine.execRstBlock data s
  | .domainResetEnd us => Sys2Proof.Machine.execDomainResetEnd us s
  | .hangEvaluate us => Sys2Proof.Machine.execHangEvaluate us s
  | .hangFire => Sys2Proof.Machine.execHangFire s
  | .dumpStart k => Sys2Proof.Machine.execDumpStart k s
  | .obsPortTimeout k => Sys2Proof.Machine.execObsPortTimeout k s
  | .dumpComplete ticks => Sys2Proof.Machine.execDumpComplete ticks s
  | .tlyCfgWrite k data => Sys2Proof.Machine.execTlyCfgWrite k data s
  | .tlyFreezeWrite data => Sys2Proof.Machine.execTlyFreezeWrite data s
  | .tlyClrAll data => Sys2Proof.Machine.execTlyClrAll data s
  | .tlyWinWrite data => Sys2Proof.Machine.execTlyWinWrite data s
  | .tlyClrPeak data => Sys2Proof.Machine.execTlyClrPeak data s
  | .tlyWindowEnd => Sys2Proof.Machine.execTlyWindowEnd s
  | .vddAoInRange => Sys2Proof.Machine.execVddAoInRange s
  | .memRequestTransfer r => Sys2Proof.Machine.execMemRequestTransfer r s
  | .nandIdleLimit => Sys2Proof.Machine.execNandIdleLimit s

end Sys2Proof.Machine
end

