-- ==== Sys2Proof/Machine/Step.lean ====
section
/-! DEFINITION. One step: the command at the front of the queue runs on the block with the queue's rest; on an empty queue 10 ns pass (DESIGN CHOICE, log entry 1). -/

namespace Sys2Proof.Machine

/-- One step of the block. (DESIGN CHOICE, log entry 1) -/
def step (s : State) : Host.Outcome State Fault Refusal :=
  match s.pending with
  | [] => s.upd Block.tick
  | c :: rest => exec c { s with pending := rest }

/-- The state with the command that a word spells put at the front of its queue. (DEDUCED, log entry 8) -/
def State.withFetchWord (s : State) (nbits w : Nat) : State :=
  match decodeTableWord nbits w with
  | none => s
  | some c => { s with pending := c :: s.pending }

end Sys2Proof.Machine
end

