-- ==== Sys2Proof/Machine/Fetch.lean ====
section
/-! DEFINITION. The decoder of a thread's words (R135, R136): the format and the row of the opcode table that a word and its extension word spell, the exception ILLEGAL of a word that spells none, and the fetch from the program store. -/

namespace Sys2Proof.Machine

/-- A field of an instruction word. -/
def fld (w : Word) (lo n : Nat) : BitVec n := BitVec.ofNat n (bits w lo n)

/-! The formats (Table 5.2). -/

def formR (w : Word) : RForm := { d := fld w 21 5, a := fld w 16 5, b := fld w 11 5, w := fld w 3 2, p := fld w 0 3 }
def formI (w : Word) : IForm := { d := fld w 21 5, a := fld w 16 5, imm := fld w 0 12 }
def formM (w : Word) : MForm := { d := fld w 21 5, a := fld w 16 5, imm := fld w 0 13 }
def formVM (w : Word) : VMForm := { d := fld w 21 5, a := fld w 16 5, p := fld w 13 3, imm := fld w 0 13 }
def formB (w : Word) : BForm := { a := fld w 21 5, b := fld w 16 5, off := fld w 0 13 }
def formJ (w : Word) : JForm := { d := fld w 21 5, off := fld w 0 21 }
def formS (w : Word) : SForm := { sh := fld w 25 1, cr := fld w 20 5, ctr := fld w 8 12, v := fld w 3 5 }
def formLI (w ext : Word) : LIForm := { d := fld w 21 5, h := fld w 20 1, lo := fld w 0 20, ext := ext }
def formT (w x : Word) : TForm :=
  { op := fld w 21 5, ta := fld w 17 4, tb := fld w 13 4, tc := fld w 9 4, sx := fld w 4 5, md := fld w 0 4
    sh := fld x 31 1, ctr := fld x 19 12, inc := fld x 11 8, sy := fld x 6 5, imm := fld x 0 6 }

/-! The rows by MAJOR (Table 5.3), in the order of FN, COND or OP (Tables 5.4 to 5.13). -/

/-- The rows of format R of a MAJOR, by FN. -/
def rowsR (major : Nat) : List (Nat → RForm → Instr) :=
  match major with
  | 0x01 => [.nop, .endThread, .fence, .rdtime, .rdtly, .tstat, .trap]
  | 0x02 => [.add, .sub, .and, .or, .xor, .sll, .srl, .sra, .mul, .mulhs, .mulhu, .slt, .sltu, .seq, .min, .max, .minu,
             .maxu, .clz, .ctz, .popc]
  | 0x08 => [.pand, .por, .pxor, .pandn, .pnot, .pmovs, .ptos, .pfirst, .pcnt]
  | 0x0A => [.vadd, .vsub, .vmul, .vmulhs, .vmulhu, .vmin, .vmax, .vminu, .vmaxu, .vand, .vor, .vxor, .vsll, .vsrl,
             .vsra, .vadds, .vaddus, .vsubs, .vsubus, .vavgu, .vabsd, .vceq, .vclt, .vcltu, .vsplat, .vext, .vins, .vperm,
             .vredadd, .vmov]
  | 0x0B => [.vfadd, .vfsub, .vfmul, .vfma, .vfmin, .vfmax, .vfclt, .vfceq, .vfcvt, .vfcvti, .vfrcp, .vfrsq]
  | 0x14 => [.aadd, .aswap, .acas, .amaxu, .aminu]
  | 0x1D => [.epochGet, .epochSet]
  | 0x1F => [.balloc, .ballocn, .bfree]
  | _ => []

/-- The rows of format I of a MAJOR, by FN. -/
def rowsI (major : Nat) : List (Nat → IForm → Instr) :=
  match major with
  | 0x03 => [.addi, .andi, .ori, .xori, .slli, .srli, .srai, .slti, .sltiu]
  | 0x1B => [.jalr]
  | 0x1E => [.tbind, .tadv, .trel]
  | _ => []

/-- LD by FN. -/
def rowsLd : List (Nat → MForm → Instr) := [.ldB, .ldBu, .ldH, .ldHu, .ldW, .ldWu, .ldD]

/-- ST by half of FN; an odd FN is not defined (Table 5.9). -/
def rowsSt : List (Nat → MForm → Instr) := [.stB, .stH, .stW, .stD]

/-- The rows of format B of a MAJOR, by COND. -/
def rowsB (major : Nat) : List (Nat → BForm → Instr) :=
  match major with
  | 0x18 => [.beq, .bne, .blt, .bge, .bltu, .bgeu]
  | 0x19 => [.bpany, .bpnone, .bpall]
  | _ => []

/-- SYNC by FN. -/
def rowsS : List (Nat → SForm → Instr) := [.signal, .wait, .srd]

/-- The tensor-issue row of a MAJOR and OP (Tables 5.12 and 5.13). In 0x24 to 0x26 OP names the unit. The rows of CODEC are
one instruction, told apart by the CMD of its parameter block; any of them issues it. -/
def rowT (major op : Nat) : Option (TStep → Instr) :=
  match major with
  | 0x20 => if op = 0x10 then some .mmaZero else if op = 0x11 then some .mmaStore
    else [Instr.mmaMxi8, .mmaE4m3, .mmaE5m2, .mmaE3m2, .mmaE2m3, .mmaE2m1, .mmaI8, .mmaBf16, .mmaF16][op]?
  | 0x21 => [Instr.winConv, .winMax, .winAvg, .winMin, .winSum][op]?
  | 0x22 => [Instr.rsmp][op]?
  | 0x23 => [Instr.warp][op]?
  | 0x24 => some .skid
  | 0x25 => some .gather
  | 0x26 => some .scatter
  | 0x27 => [Instr.takeFrame, .takeRegion][op]?
  | 0x28 => [Instr.codecOpen][op]?
  | 0x29 => [Instr.logrd][op]?
  | 0x2A => [Instr.logwr][op]?
  | 0x2B => [Instr.slotPlace, .slotVoid][op]?
  | _ => none

/-- A MAJOR of format T (Table 5.3). -/
def isTensorMajor (major : Nat) : Bool := 0x20 ≤ major && major ≤ 0x2B

/-- MAJOR alone says whether an extension word follows (R135). -/
def instrLen (w : Word) : Nat := if bits w 26 6 = 0x04 ∨ isTensorMajor (bits w 26 6) then 8 else 4

/-- The instruction of thread `th` that a word and the word after it spell (R135); none where MAJOR is reserved, or FN, COND
or OP is not defined for it (R136). (DEDUCED, log entry 8) (DEDUCED, log entry 24) -/
def decodeInstr (th : Nat) (w x : Word) : Option Instr :=
  let major := bits w 26 6
  if isTensorMajor major then (rowT major (bits w 21 5)).map fun row => row (.issue th (formT w x))
  else match major with
    | 0x03 | 0x1B | 0x1E => (rowsI major)[bits w 12 4]?.map fun row => row th (formI w)
    | 0x04 => some (.li th (formLI w x))
    | 0x10 => rowsLd[bits w 13 3]?.map fun row => row th (formM w)
    | 0x11 => if bits w 13 1 = 1 then none else rowsSt[bits w 14 2]?.map fun row => row th (formM w)
    | 0x12 => some (.vld th (formVM w))
    | 0x13 => some (.vst th (formVM w))
    | 0x18 | 0x19 => (rowsB major)[bits w 13 3]?.map fun row => row th (formB w)
    | 0x1A => some (.jal th (formJ w))
    | 0x1C => rowsS[bits w 0 3]?.map fun row => row th (formS w)
    | _ => (rowsR major)[bits w 5 6]?.map fun row => row th (formR w)

/-- A thread issues a word and the word after it: the row that they spell, or ILLEGAL (R136). (DEDUCED, log entry 22)
(DEDUCED, log entry 24) -/
def runWord (th : Nat) (w x : Word) (s : State) : Host.Outcome State Fault Refusal :=
  match decodeInstr th w x with
  | some i => exec i s
  | none => s.upd fun b => b.issueInstr th w.toNat (instrLen w) (isTensorMajor (bits w 26 6)) fun _ _ => .raise excIllegal

/-- Where the next instruction of a thread lies in the program store (R98, R131). -/
def Block.fetchAt (b : Block) (t : Thread) : Nat :=
  match b.findJob t.job with
  | some job => entProg job.entry + t.pc.toNat
  | none => 0

/-- A thread fetches and issues its next instruction. (DEDUCED, log entry 8) (DEDUCED, log entry 22) -/
def runThread (th : Nat) (s : State) : Host.Outcome State Fault Refusal :=
  match s.blk.findThread th with
  | some t => runWord th (s.blk.pword (s.blk.fetchAt t)) (s.blk.pword (s.blk.fetchAt t + 4)) s
  | none => s.upd id

end Sys2Proof.Machine
end

