-- ==== Sys2Proof/Machine/Outputs.lean ====
section
/-! DEFINITION. What the outputs of the VDD_FK port logic carry (R53, R60, R73, R75; Tables 2.8, 2.17, 2.18, 2.21, 2.22): the reset state of each while isolation clamps it, and what the block drives otherwise. -/

namespace Sys2Proof.Machine

/-- Isolation holds the outputs: VDD_FK is off, or the block domain is in reset from step 5 of Table 2.7 on (R53). -/
def Block.clamped (b : Block) : Bool := !b.pins.vddFk || b.ao.phase == .held

/-- An output: its reset state while it is clamped. -/
def Block.output {α : Type} (b : Block) (reset value : α) : α := if b.clamped then reset else value

/-- Memory channel `n` is present. -/
def Block.memThere (b : Block) (n : Nat) : Bool := b.ao.straps.mem.getLsbD n

/-- `fk_m<n>_rq_vld` and `fk_m<n>_wq_vld`. Which requests stand presented at a moment is not given; an absent channel has
none (Table 2.3). (DESIGN CHOICE, log entry 93) -/
def Block.outReqVld (b : Block) (n : Nat) : Bool := b.output false (b.memThere n && b.fresh % 2 == 1)

/-- The command that an agent of the Movement cluster reads or writes for. -/
def Block.agentCmd (b : Block) (a : Agent) : Option Cmd :=
  match a with
  | .skidder _ id | .gather id => b.findCmd id
  | _ => none

/-- QOS of a request (Table 2.10): 3 for a walk (R118), the priority of the queue that an entry is read for (R381), that of
the queue whose job's command accesses; of the other agents no issuing queue is given. (DESIGN CHOICE, log entry 93) -/
def Block.outQos (b : Block) (r : MemReq) : Nat :=
  match r.agent with
  | .walk => 3
  | .fetch n | .own n => b.sqPrio n
  | a => (((b.agentCmd a).bind b.sqOf).map b.sqPrio).getD (b.fresh % 4)

/-- NOALLOC of a request (Table 2.10): 0 for a walk and a read of an entry (R118, R381), 1 for an operand whose descriptor
says so (Table 6.2); elsewhere the leaf of the page decides. (DESIGN CHOICE, log entry 93) -/
def Block.outNoalloc (b : Block) (r : MemReq) : Bool :=
  match r.agent with
  | .walk | .fetch _ => false
  | a => match b.agentCmd a with
    | some c => (if r.write then dNoalloc c.tc else dNoalloc c.ta && dNoalloc c.tb) || b.fresh % 2 == 1
    | none => b.fresh % 2 == 1

/-- `fk_m<n>_rq_attr` and `fk_m<n>_wq_attr` of a request (Table 2.10). -/
def Block.outAttr (b : Block) (r : MemReq) : Nat := b.output 0 (4 * b2n (b.outNoalloc r) + b.outQos r)

/-- `fk_m<n>_rs_rdy` and `fk_m<n>_wk_rdy` (R60): high out of reset and in steps 1 to 4 of Table 2.7. -/
def Block.outRspRdy (b : Block) (n : Nat) : Bool := b.output false (b.memThere n)

/-- `fk_m_quiet` (R55). -/
def Block.outQuiet (b : Block) : Bool := b.output true b.quiet

/-- `fk_trig` (R71): bit `k` is the level of trigger `k`. -/
def Block.outTrig (b : Block) : Nat := b.output 0 (((List.range 12).map fun k => b2n (b.trig k).level * 2 ^ k).sum)

/-- Camera port `p` is enabled and not held by a reset or by step 2 of Table 2.7 (Table 9.2). -/
def Block.phyOn (b : Block) (p : Nat) : Bool :=
  b.camPresent p && b.rb (CAM_PORT_CFG p) 31 && b.ao.phase ≠ .entering

/-- `fk_c<p>_enable`: the enabled lanes. -/
def Block.outCamEnable (b : Block) (p : Nat) : Nat :=
  b.output 0 (if b.phyOn p then 2 ^ (b.rf (CAM_PORT_CFG p) 28 2 + 1) - 1 else 0)

/-- `fk_c<p>_shutdn`. -/
def Block.outCamShutdn (b : Block) (p : Nat) : Bool := b.output true (!b.phyOn p)

/-- An operation is in progress on a target of channel `n`. -/
def Block.chanWorks (b : Block) (n : Nat) : Bool := b.ls.ops.any fun o => tgChan o.2.target == n

/-- `fk_n<n>_ce_n`: released while no operation is in progress; which bus cycle an operation is at is not given.
(DESIGN CHOICE, log entry 93) -/
def Block.outCeN (b : Block) (n : Nat) : Nat := b.output 0xFF (if b.chanWorks n then b.fresh % 256 else 0xFF)

/-- `fk_n<n>_wp_n` (R73, Table 2.7 step 4): raised while the store is mounted. -/
def Block.outWpN (b : Block) : Bool := b.output false (b.rb LS_STATUS 27 && !(b.ao.phase == .entering && b.nandQuiet))

/-- `fk_n<n>_dly_rd` (R307). -/
def Block.outDlyRd (b : Block) (n : Nat) : Nat := b.output 0x40 ((SMap.find b.ls.dly n).getD 0x40)

/-- `fk_n<n>_dly_wr` (R307). -/
def Block.outDlyWr (b : Block) (n : Nat) : Nat := b.output 0x40 ((SMap.find b.ls.dly (n + 8)).getD 0x40)

/-- `fk_byp_closed`: on VDD_AO, whatever VDD_FK does (R77). -/
def Block.outBypClosed (b : Block) : Bool := b.bypassed

/-- `fk_byp_cause`: a copy of GLB_BYP.CAUSE. -/
def Block.outBypCause (b : Block) : Nat := b.bypCode

end Sys2Proof.Machine
end

