-- ==== Sys2Proof/Machine/Library.lean ====
section
/-! DEFINITION. The results that the precompiled library's tokeniser and embedding bags give (R244 to R248). No command runs them: a library job is a program of the instructions. -/

namespace Sys2Proof.Machine

/-! The tokeniser (R244 to R246). -/

/-- No identifier. -/
def noToken : Nat := 0xFFFFFFFF

/-- A little-endian word of a byte string. -/
def wordOf (xs : List Byte) (o : Nat) : Nat := leNat ((xs.drop o).take 4)

/-- The fields of a tokeniser table's header and nodes (Tables 8.11 and 8.12). -/
def tkNodes (t : List Byte) : Nat := wordOf t 0x04
def tkByteBase (t : List Byte) : Nat := wordOf t 0x0C
def tkPad (t : List Byte) : Nat := wordOf t 0x10
def tkBos (t : List Byte) : Nat := wordOf t 0x14
def tkEos (t : List Byte) : Nat := wordOf t 0x18
def tkBase (t : List Byte) (n : Nat) : Nat := wordOf t (64 + 16 * n)
def tkCheck (t : List Byte) (n : Nat) : Nat := wordOf t (64 + 16 * n + 4)
/-- DEDUCED, log entry 37. -/
def tkToken (t : List Byte) (n : Nat) : Nat := wordOf t (64 + 16 * n + 8)

/-- The header that a job accepts (R246); `region` is the size of the region in bytes. -/
def tkHeaderOk (t : List Byte) (region : Nat) : Bool :=
  wordOf t 0 == 0x544B5846 && 1 ≤ tkNodes t && tkNodes t ≤ 262140 && 64 + 16 * tkNodes t ≤ region

/-- The byte as it is matched. -/
def tkFold (t : List Byte) (x : Byte) : Nat :=
  if wordOf t 0x1C % 2 = 1 ∧ 0x41 ≤ x.toNat ∧ x.toNat ≤ 0x5A then x.toNat + 0x20 else x.toNat

/-- The longest match from node `s`: its identifier and how many bytes it takes; `k` bytes are taken so far. -/
def tkMatch (t : List Byte) : List Byte → Nat → Nat → Nat × Nat → Nat × Nat
  | [], _, _, best => best
  | x :: xs, s, k, best =>
    let c := tkBase t s + tkFold t x
    if c < 1 ∨ tkNodes t ≤ c ∨ tkCheck t c ≠ s then best
    else tkMatch t xs c (k + 1) (if tkToken t c ≠ noToken then (tkToken t c, k + 1) else best)

/-- At most `n` identifiers of the input, and whether input remains. -/
def tkTokens (t : List Byte) : List Byte → Nat → List Nat × Bool
  | xs, 0 => ([], !xs.isEmpty)
  | [], _ => ([], false)
  | x :: xs, n + 1 =>
    let m := tkMatch t (x :: xs) 0 0 (noToken, 0)
    let best := if m.1 = noToken then (tkByteBase t + x.toNat, 1) else m
    let r := tkTokens t ((x :: xs).drop best.2) n
    (best.1 :: r.1, r.2)

/-- The count word and the `n` identifiers that the tokeniser writes (R245), for an output of `n` ≥ 1.
(DEDUCED, log entry 37) -/
def tokenise (t xs : List Byte) (n : Nat) : Nat × List Nat :=
  let bos := if tkBos t ≠ noToken then [tkBos t] else []
  let r := tkTokens t xs (n - bos.length)
  let out := bos ++ r.1
  let out := if tkEos t = noToken then out
    else if out.length = n then out.take (n - 1) ++ [tkEos t] else out ++ [tkEos t]
  (out.length + b2n r.2 * 2 ^ 31, out ++ List.replicate (n - out.length) (tkPad t))

/-- What a library call of a job's thread comes to: it ends the job through an exception, it voids the sample's slot with
a status, or it writes its output. -/
inductive LibRun (α : Type) where
  | raise (cause : Nat)
  | void (status : Nat)
  | out (x : α)
  deriving DecidableEq, Repr

/-- The input and output lengths that the tokeniser accepts (R246). -/
def tkAccepts (l n : Nat) : Bool := l ≤ 65536 && 1 ≤ n && n ≤ 8192

/-- The tokeniser on a table in a region, an input, and an output of `n` identifiers (R246): a header that fails ends the
job through TRAP at the start of the job. What it does with a length that it does not accept is not stated; the model ends
the job in the same way. (DEDUCED, log entry 37) -/
def tkRun (t : List Byte) (region : Nat) (xs : List Byte) (n : Nat) : LibRun (Nat × List Nat) :=
  if tkHeaderOk t region && tkAccepts xs.length n then .out (tokenise t xs n) else .raise excTrap

/-- The end of a library call in thread `th`: an exception is that of the TRAP at which the program stands (R160, R161). -/
def Block.libEnd {α : Type} (b : Block) (th : Nat) (r : LibRun α) : Block :=
  match r, b.findThread th with
  | .raise cause, some t => match b.findJob t.job with
    | some job => b.raise th t job cause (wordR 0x01 0x06 { d := 0, a := 0, b := 0, w := 0, p := 0 })
    | none => b
  | _, _ => b

/-! Embedding bags (R247, R248). -/

/-- How a bag is pooled. -/
inductive Pooling where
  | sum
  | mean
  | max
  deriving DecidableEq, Repr

/-- The canonical NaN where either operand is one, else the greater. -/
def maxNan (a b : Fp) : Fp := if a.isNan || b.isNan then .nan else a.maxNum b

/-- One row enters the sums. -/
def poolRow (m : Pooling) (acc row : List Fp) (w : Fp) : List Fp :=
  (acc.zip row).map fun e =>
    let x := f32mul e.2 w
    if m = .max then maxNan e.1 x else f32add e.1 x

/-- The rows of a bag in index order: the sums, the rows pooled and the indices skipped. -/
def poolRows (m : Pooling) (rows : List (List Fp)) : List (Nat × Fp) → List Fp × Nat × Nat → List Fp × Nat × Nat
  | [], a => a
  | (r, w) :: xs, (acc, n, skipped) =>
    match rows[r]? with
    | none => poolRows m rows xs (acc, n, skipped + 1)
    | some row => poolRows m rows xs (poolRow m acc row w, n + 1, skipped)

/-- A bag of width `width`: its FP32 values before conversion to the output's type, and the indices skipped.
(DEDUCED, log entry 37) -/
def poolBag (m : Pooling) (rows : List (List Fp)) (width : Nat) (bag : List (Nat × Fp)) : List Fp × Nat :=
  let zero : Fp := .fin false 0 0
  let first : Fp := if m = .max then .inf true else zero
  let r := poolRows m rows bag (List.replicate width first, 0, 0)
  let acc := if r.2.1 = 0 then List.replicate width zero
    else if m = .mean then r.1.map fun x => f32div x (f32nat r.2.1) else r.1
  (acc, r.2.2)

/-- The offset list of a sample is sound (R247). (DEDUCED, log entry 37) -/
def offsetsOk (offs : List Nat) (indices : Nat) : Bool :=
  (offs.zip (offs.drop 1)).all (fun e => e.1 ≤ e.2) && decide (offs.getLastD 0 ≤ indices)

/-- The types of an embedding table and of the pooled output: FP16, BF16 and FP32 (R247). -/
def bagType (t : Nat) : Bool := t == 0x06 || t == 0x07 || t == 0x08

/-- The inputs of an embedding bag (R247): the table's type and its rows as stored codes, the width, the indices, the
offsets, and the weights where there are any. -/
structure BagIn where
  ty : Nat
  rows : List (List Nat)
  width : Nat
  idx : List Nat
  offs : List Nat
  weights : Option (List Nat)
  deriving DecidableEq, Repr

/-- Bag `i`: the indices from OFF[i] on, below OFF[i + 1], each with its weight, 1.0 without W (R247, R248). -/
def BagIn.bag (x : BagIn) (i : Nat) : List (Nat × Fp) :=
  let lo := x.offs.getD i 0
  (List.range (x.offs.getD (i + 1) 0 - lo)).map fun j =>
    (x.idx.getD (lo + j) 0, match x.weights with
      | some w => fp32.decode (w.getD (lo + j) 0)
      | none => Fp.ofInt 1)

/-- The pooled bags of a sample in the type `out`, and the indices skipped in all; a sample whose offsets are not sound is
voided (R247, R248). Types that R247 does not name end the job like a bad table of the tokeniser. (DEDUCED, log entry 37) -/
def bagRun (m : Pooling) (out : Nat) (x : BagIn) : LibRun (List (List Nat) × Nat) :=
  if !(bagType x.ty && bagType out) then .raise excTrap
  else if !offsetsOk x.offs x.idx.length then .void stCorrupt
  else
    let rows := x.rows.map (·.map (elemValue x.ty))
    let bags := (List.range (x.offs.length - 1)).map fun i => poolBag m rows x.width (x.bag i)
    .out (bags.map fun b => b.1.map (convertCode out), (bags.map (·.2)).sum)

end Sys2Proof.Machine
end

