-- ==== Sys2Proof/Safety.lean ====
section
/-! DEFINITION. The terms in which statements about the block are made: when a thread may issue, what a change of the block leaves as it was, and the predicates that steps keep. -/

namespace Sys2Proof.Machine

/-! What counting leaves. -/

/-- The registers that an occurrence counted by the tally may change: TLY_WRAP, and WRAP of the TALLY branch (R439). -/
abbrev countReg (o : Nat) : Prop := o = INT_CAUSE 8 ∨ (0x3D010 ≤ o ∧ o < 0x3D030)

/-- Everything but the registers of a list, the tally's counts, the bandwidth windows, the registers of `countReg` and
the interrupt output is as before. -/
structure RegsOnly (os : List Nat) (b b' : Block) : Prop where
  pins : b'.pins = { b.pins with irq := b'.pins.irq }
  bus : b'.bus = b.bus
  ext : b'.ext = b.ext
  free : b'.free = b.free
  ao : b'.ao = { b.ao with regs := b'.ao.regs }
  fk : b'.fk = { b.fk with regs := b'.fk.regs, tally := b'.fk.tally, window := b'.fk.window }
  regs : ∀ o, o ∉ os → ¬countReg o → b'.reg o = b.reg o

/-- Only counting has changed the block. -/
abbrev CountsOnly (b b' : Block) : Prop := RegsOnly [] b b'

/-- A command completes: `exec` answers a next state with the same queue, whose block is as `P` says. -/
def Ends (c : Instr) (s : State) (P : Block → Prop) : Prop := ∃ u, exec c s = .next u ∧ u.pending = s.pending ∧ P u.blk

/-! Threads. -/

/-- Thread `th` may issue an instruction of `len` bytes: the VDD_FK units run, the thread runs for a started job, it
holds nothing, and the instruction lies in the code of its image (R137, R157). -/
abbrev Block.mayRun (b : Block) (th len : Nat) (t : Thread) (job : Job) : Prop :=
  b.live = true ∧ b.findThread th = some t ∧ b.findJob t.job = some job ∧ t.hold = .none ∧ fetchOk job t len = true

/-- Thread `th` is as `t'` says and every other thread is as before; so is all else, but for what counting the
instruction changes. -/
structure OnlyThread (th : Nat) (t' : Thread) (b b' : Block) : Prop where
  mine : b'.findThread th = some t'
  others : ∀ x, x ≠ th → b'.findThread x = b.findThread x
  rest : CountsOnly b { b' with fk := { b'.fk with threads := b.fk.threads } }

/-- The instruction completes: `exec` answers a next state, the queue is as before, thread `th` is left as `t'` says and
nothing else changes but the tally. -/
def Sets (i : Instr) (s : State) (th : Nat) (t' : Thread) : Prop :=
  ∃ u, exec i s = .next u ∧ u.pending = s.pending ∧ OnlyThread th t' s.blk u.blk

/-- Byte `j` of the scratchpads (of the landing, where `landing`) is one of `n` bytes from a local place on. -/
def Local.covers (l : Local) (n : Nat) (landing : Bool) (j : Nat) : Prop :=
  match l with
  | .stand s x => landing = false ∧ s * standBytes + x ≤ j ∧ j < s * standBytes + x + n
  | .landing x => landing = true ∧ x ≤ j ∧ j < x + n

/-! Classes of commands. -/

/-- The instructions that change their own thread alone, with the thread that issues them. -/
def registerOnly : Instr → Option Nat
  | .add th _ => some th
  | .sub th _ => some th
  | .and th _ => some th
  | .or th _ => some th
  | .xor th _ => some th
  | .sll th _ => some th
  | .srl th _ => some th
  | .sra th _ => some th
  | .mul th _ => some th
  | .mulhs th _ => some th
  | .mulhu th _ => some th
  | .slt th _ => some th
  | .sltu th _ => some th
  | .seq th _ => some th
  | .min th _ => some th
  | .max th _ => some th
  | .minu th _ => some th
  | .maxu th _ => some th
  | .clz th _ => some th
  | .ctz th _ => some th
  | .popc th _ => some th
  | .addi th _ => some th
  | .andi th _ => some th
  | .ori th _ => some th
  | .xori th _ => some th
  | .slli th _ => some th
  | .srli th _ => some th
  | .srai th _ => some th
  | .slti th _ => some th
  | .sltiu th _ => some th
  | .li th _ => some th
  | .nop th _ => some th
  | .fence th _ => some th
  | .rdtime th _ => some th
  | .rdtly th _ => some th
  | .tstat th _ => some th
  | .pand th _ => some th
  | .por th _ => some th
  | .pxor th _ => some th
  | .pandn th _ => some th
  | .pnot th _ => some th
  | .pmovs th _ => some th
  | .ptos th _ => some th
  | .pfirst th _ => some th
  | .pcnt th _ => some th
  | .vadd th _ => some th
  | .vsub th _ => some th
  | .vmul th _ => some th
  | .vmulhs th _ => some th
  | .vmulhu th _ => some th
  | .vmin th _ => some th
  | .vmax th _ => some th
  | .vminu th _ => some th
  | .vmaxu th _ => some th
  | .vand th _ => some th
  | .vor th _ => some th
  | .vxor th _ => some th
  | .vsll th _ => some th
  | .vsrl th _ => some th
  | .vsra th _ => some th
  | .vadds th _ => some th
  | .vaddus th _ => some th
  | .vsubs th _ => some th
  | .vsubus th _ => some th
  | .vavgu th _ => some th
  | .vabsd th _ => some th
  | .vceq th _ => some th
  | .vclt th _ => some th
  | .vcltu th _ => some th
  | .vsplat th _ => some th
  | .vext th _ => some th
  | .vins th _ => some th
  | .vperm th _ => some th
  | .vredadd th _ => some th
  | .vmov th _ => some th
  | .vfadd th _ => some th
  | .vfsub th _ => some th
  | .vfmul th _ => some th
  | .vfma th _ => some th
  | .vfmin th _ => some th
  | .vfmax th _ => some th
  | .vfclt th _ => some th
  | .vfceq th _ => some th
  | .vfcvt th _ => some th
  | .vfcvti th _ => some th
  | .ldB th _ => some th
  | .ldBu th _ => some th
  | .ldH th _ => some th
  | .ldHu th _ => some th
  | .ldW th _ => some th
  | .ldWu th _ => some th
  | .ldD th _ => some th
  | .vld th _ => some th
  | .beq th _ => some th
  | .bne th _ => some th
  | .blt th _ => some th
  | .bge th _ => some th
  | .bltu th _ => some th
  | .bgeu th _ => some th
  | .bpany th _ => some th
  | .bpnone th _ => some th
  | .bpall th _ => some th
  | .jal th _ => some th
  | .jalr th _ => some th
  | .wait th _ => some th
  | .srd th _ => some th
  | .epochGet th _ => some th
  | .epochSet th _ => some th
  | .tbind th _ => some th
  | .tadv th _ => some th
  | .trel th _ => some th
  | _ => none

/-- The instructions of a thread other than tensor issue. -/
def threadLocal : Instr → Bool
  | .endThread _ _ => true
  | .trap _ _ => true
  | .vfrcp _ _ => true
  | .vfrsq _ _ => true
  | .stB _ _ => true
  | .stH _ _ => true
  | .stW _ _ => true
  | .stD _ _ => true
  | .vst _ _ => true
  | .aadd _ _ => true
  | .aswap _ _ => true
  | .acas _ _ => true
  | .amaxu _ _ => true
  | .aminu _ _ => true
  | .signal _ _ => true
  | .balloc _ _ => true
  | .ballocn _ _ => true
  | .bfree _ _ => true
  | i => (registerOnly i).isSome

/-- The commands that do not come from the units on VDD_FK: pins and supplies, accesses of the register port and of the test
access port, transfers of the memory and NAND ports, and what checkers and the control island do by themselves. -/
def fromElsewhere : Instr → Bool
  | .coldResetAssert => true
  | .coldResetRelease _ => true
  | .warmResetAssert => true
  | .warmResetRelease => true
  | .pwrokRise => true
  | .pwrokFall => true
  | .vddFkLoss => true
  | .vddAoExcursion => true
  | .blockDomainResetEntry => true
  | .blockDomainResetExit => true
  | .selfTestDone _ => true
  | .pfailAssert => true
  | .pfailDeassert => true
  | .registerWrite _ _ => true
  | .hiWriteCommit _ _ => true
  | .loReadCapture _ => true
  | .registerAccessTimeout _ _ => true
  | .hclkRestart => true
  | .timebaseSample _ => true
  | .tbClkRestart _ => true
  | .camTrigWrite _ _ => true
  | .memReadResponse _ _ _ _ => true
  | .memWriteAck _ _ _ => true
  | .bypassClose => true
  | .bypassOpen => true
  | .glbBypWrite _ => true
  | .tapReset => true
  | .tapInstruction _ => true
  | .obsCtrlUpdate _ => true
  | .obsDataCapture => true
  | .paceWindowEnd _ => true
  | .paceClrMin _ => true
  | .pstoreWindowWrite _ _ => true
  | .syncAddWrite _ => true
  | .syncValWrite _ => true
  | .syncCfgWrite _ => true
  | .syncPoolWrite _ => true
  | .xlInvGo _ => true
  | .xlCtxEnable _ _ => true
  | .contextTeardown _ _ => true
  | .xlFqResume _ => true
  | .xlFqAbort _ => true
  | .xlFqHeadWrite _ => true
  | .xlFqConfigWrite _ _ => true
  | .camPortCfgWrite _ _ => true
  | .camPortClr _ _ => true
  | .camStreamEnable _ _ => true
  | .camStreamDisable _ _ => true
  | .camStreamCommit _ _ => true
  | .camTableWrite _ _ => true
  | .nandProgramDone _ _ => true
  | .nandEraseDone _ _ => true
  | .nandReadDone _ _ => true
  | .boomCfgWrite _ _ => true
  | .boomWatermarkWrite _ _ => true
  | .boomFreeRead _ => true
  | .deckChannelEnable _ _ => true
  | .deckChannelDisable _ _ => true
  | .deckAdvance _ _ => true
  | .dkRelease _ _ => true
  | .flumeEnable _ => true
  | .flumeDisable _ => true
  | .flRxpRel _ _ => true
  | .sqDoorbell _ _ => true
  | .sqInvalidate _ _ => true
  | .sqEnable _ _ => true
  | .sqDisable _ _ => true
  | .sqResume _ _ => true
  | .sqPauseWrite _ _ => true
  | .crHeadWrite _ _ => true
  | .crSizeWrite _ _ => true
  | .intCauseClear _ _ => true
  | .intTest _ _ => true
  | .faultDetected _ => true
  | .stageStall _ => true
  | .ldgSelWrite _ => true
  | .rstThread _ => true
  | .rstEngine _ => true
  | .rstStand _ => true
  | .rstSubsystem _ => true
  | .rstBlock _ => true
  | .dumpStart _ => true
  | .obsPortTimeout _ => true
  | .dumpComplete _ => true
  | .tlyCfgWrite _ _ => true
  | .tlyFreezeWrite _ => true
  | .tlyClrAll _ => true
  | .tlyWinWrite _ => true
  | .tlyClrPeak _ => true
  | .vddAoInRange => true
  | .memRequestTransfer _ => true
  | .nandIdleLimit => true
  | _ => false

end Sys2Proof.Machine
end

