-- ==== Sys2Proof/Certificates/Slice0/Obligations.lean ====
section
/-! DEFINITION. The statements for the provers, by chapter of the spec. Each says that a command completes, what it leaves and what it leaves alone. -/

open Sys2Proof Sys2Proof.Machine

/-! Scalar instructions (Table 5.4). -/

/-- Table 5.4, format R: every scalar operation completes with the value the table gives, for every register named; a
shift uses sB[5:0]. The thread goes on 4 bytes further and nothing else changes. Table 5.4: CLZ, CTZ and POPC, whose
field B is 0. CLZ and CTZ give 64 for 0, and otherwise the number of zero bits above the highest, below the lowest, bit
that is set. -/
def Obligations.ScalarOperationsGiveTableValues : Prop :=
  (∀ (s : State) (th : Nat) (f : RForm) (t : Thread) (job : Job), s.blk.mayRun th 4 t job → f.w = 0 → f.p = 0 →
    let a := t.sc f.a
    let b := t.sc f.b
    let k := b.toNat % 64
    let gives := fun (i : Instr) (v : Dword) => Sets i s th ((t.setSc f.d v).adv 4)
    gives (.add th f) (a + b) ∧ gives (.sub th f) (a - b) ∧ gives (.and th f) (a &&& b) ∧ gives (.or th f) (a ||| b) ∧
    gives (.xor th f) (a ^^^ b) ∧ gives (.sll th f) (BitVec.ofNat 64 (a.toNat * 2 ^ k)) ∧
    gives (.srl th f) (BitVec.ofNat 64 (a.toNat / 2 ^ k)) ∧ gives (.sra th f) (BitVec.ofInt 64 (a.toInt / 2 ^ k)) ∧
    gives (.mul th f) (BitVec.ofInt 64 (a.toInt * b.toInt)) ∧
    gives (.mulhs th f) (BitVec.ofInt 64 (a.toInt * b.toInt / 2 ^ 64)) ∧
    gives (.mulhu th f) (BitVec.ofNat 64 (a.toNat * b.toNat / 2 ^ 64)) ∧
    gives (.slt th f) (if a.toInt < b.toInt then 1 else 0) ∧ gives (.sltu th f) (if a.toNat < b.toNat then 1 else 0) ∧
    gives (.seq th f) (if a = b then 1 else 0) ∧ gives (.min th f) (if a.toInt ≤ b.toInt then a else b) ∧
    gives (.max th f) (if a.toInt ≤ b.toInt then b else a) ∧ gives (.minu th f) (if a.toNat ≤ b.toNat then a else b) ∧
    gives (.maxu th f) (if a.toNat ≤ b.toNat then b else a)) ∧
  (∀ (s : State) (th : Nat) (f : RForm) (t : Thread) (job : Job), s.blk.mayRun th 4 t job →
    f.w = 0 → f.p = 0 → f.b = 0 →
    let a := t.sc f.a
    let gives := fun (i : Instr) (n : Nat) => Sets i s th ((t.setSc f.d (BitVec.ofNat 64 n)).adv 4)
    (∃ n, gives (.clz th f) n ∧ n ≤ 64 ∧ (∀ i, 64 - n ≤ i → i < 64 → a.getLsbD i = false) ∧
      (n < 64 → a.getLsbD (63 - n) = true)) ∧
    (∃ n, gives (.ctz th f) n ∧ n ≤ 64 ∧ (∀ i, i < n → a.getLsbD i = false) ∧ (n < 64 → a.getLsbD n = true)) ∧
    gives (.popc th f) ((List.range 64).countP a.getLsbD))

/-- Table 5.4, format I, with the immediate sign-extended; a shift uses IMM12[5:0] and its IMM12[11:6] are 0. LI (R137)
takes 8 bytes: H = 0 sign-extends the second word, H = 1 puts it above the low half that sD holds. -/
def Obligations.ImmediateOperationsGiveTableValues : Prop :=
  ∀ (s : State) (th : Nat) (t : Thread) (job : Job), s.blk.mayRun th 4 t job →
    (∀ f : IForm,
      let a := t.sc f.a
      let m := f.imm.signExtend 64
      let k := f.imm.toNat % 64
      let gives := fun (i : Instr) (v : Dword) => Sets i s th ((t.setSc f.d v).adv 4)
      gives (.addi th f) (a + m) ∧ gives (.andi th f) (a &&& m) ∧ gives (.ori th f) (a ||| m) ∧
      gives (.xori th f) (a ^^^ m) ∧ gives (.slti th f) (if a.toInt < m.toInt then 1 else 0) ∧
      gives (.sltiu th f) (if a.toNat < m.toNat then 1 else 0) ∧
      (f.imm.toNat < 64 → gives (.slli th f) (BitVec.ofNat 64 (a.toNat * 2 ^ k)) ∧
        gives (.srli th f) (BitVec.ofNat 64 (a.toNat / 2 ^ k)) ∧ gives (.srai th f) (BitVec.ofInt 64 (a.toInt / 2 ^ k)))) ∧
    (∀ f : LIForm, s.blk.mayRun th 8 t job → f.lo = 0 →
      Sets (.li th f) s th ((t.setSc f.d
        (if f.h = 0 then f.ext.signExtend 64
         else BitVec.ofNat 64 (f.ext.toNat * 2 ^ 32 + (t.sc f.d).toNat % 2 ^ 32))).adv 8))

/-- Table 5.4, the system group: NOP and FENCE only go on, RDTIME reads the latest sample, RDTLY a count that a user may
read (R444) and 0 otherwise, TSTAT the thread's summary (R134); END frees the thread's slot and nothing else. -/
def Obligations.SystemInstructionsComplete : Prop :=
  ∀ (s : State) (th : Nat) (f : RForm) (t : Thread) (job : Job), s.blk.mayRun th 4 t job →
    f.b = 0 → f.w = 0 → f.p = 0 →
    let i := (t.sc f.a).toNat % 256
    let x := job.tstOf t.jidx
    (f.d = 0 → f.a = 0 → Sets (.nop th f) s th (t.adv 4) ∧ Sets (.fence th f) s th (t.adv 4) ∧
      ∃ u, exec (.endThread th f) s = .next u ∧ u.blk.findThread th = none ∧
        (∀ y, y ≠ th → u.blk.findThread y = s.blk.findThread y) ∧
        CountsOnly s.blk { u.blk with fk := { u.blk.fk with threads := s.blk.fk.threads } }) ∧
    (f.a = 0 → Sets (.rdtime th f) s th ((t.setSc f.d (BitVec.ofNat 64 s.blk.now)).adv 4) ∧
      Sets (.tstat th f) s th ((t.setSc f.d
        (BitVec.ofNat 64 (x.first.toNat + x.last.toNat * 2 ^ 8 + x.count.toNat * 2 ^ 16))).adv 4)) ∧
    Sets (.rdtly th f) s th ((t.setSc f.d (BitVec.ofNat 64
      (if s.blk.rb (TLY_USER_EN (i / 32)) (i % 32) then s.blk.tallyCount i else 0))).adv 4)

/-- Register s0 reads 0 and a write to it is discarded (R131); every other scalar reads as it was written last, and a
write leaves the rest. -/
def Obligations.ScalarZeroIsHardwired : Prop :=
  ∀ (t : Thread) (i j : BitVec 5) (v : Dword),
    (t.setSc 0 v) = t ∧ t.sc 0 = 0 ∧ (i ≠ 0 → (t.setSc i v).sc i = v) ∧ (j ≠ i → (t.setSc i v).sc j = t.sc j) ∧
    (t.setSc i v).v = t.v ∧ (t.setSc i v).p = t.p ∧ (t.setSc i v).t = t.t ∧ (t.setSc i v).pc = t.pc ∧
    (t.setSc i v).ep = t.ep ∧ (t.setSc i v).hold = t.hold

/-! Predicates and vectors (Tables 5.5 to 5.7). -/

/-- Table 5.7: the predicate group, for predicates p0 to p7. PFIRST gives min(sA, 64) ones from bit 0. -/
def Obligations.PredicateOperationsGiveTableValues : Prop :=
  ∀ (s : State) (th : Nat) (f : RForm) (t : Thread) (job : Job), s.blk.mayRun th 4 t job →
    (f.d.toNat < 8 → f.a.toNat < 8 → f.b.toNat < 8 →
      Sets (.pand th f) s th ((t.setPr f.d (t.pr f.a &&& t.pr f.b)).adv 4) ∧
      Sets (.por th f) s th ((t.setPr f.d (t.pr f.a ||| t.pr f.b)).adv 4) ∧
      Sets (.pxor th f) s th ((t.setPr f.d (t.pr f.a ^^^ t.pr f.b)).adv 4) ∧
      Sets (.pandn th f) s th ((t.setPr f.d (t.pr f.a &&& ~~~t.pr f.b)).adv 4)) ∧
    (f.d.toNat < 8 → f.a.toNat < 8 → Sets (.pnot th f) s th ((t.setPr f.d (~~~t.pr f.a)).adv 4)) ∧
    (f.d.toNat < 8 → Sets (.pmovs th f) s th ((t.setPr f.d (t.sc f.a)).adv 4) ∧
      ∃ v : Dword, Sets (.pfirst th f) s th ((t.setPr f.d v).adv 4) ∧
        ∀ i, i < 64 → v.getLsbD i = decide (i < (t.sc f.a).toNat)) ∧
    (f.a.toNat < 8 → Sets (.ptos th f) s th ((t.setSc f.d (t.pr f.a)).adv 4) ∧
      Sets (.pcnt th f) s th ((t.setSc f.d (BitVec.ofNat 64 ((List.range 64).countP (t.pr f.a).getLsbD))).adv 4))

/-- Table 5.5, two vectors: each active element takes the value the table gives, each other element of vD stays (R139).
The width of an element is 2^W bytes; signed operands are read in two's complement, and a saturating form stays in the
element's range. Where the spec is open, it follows log entries 9 and 23. -/
def Obligations.VectorIntegerElementsGiveTableValues : Prop :=
  ∀ (s : State) (th : Nat) (f : RForm) (t : Thread) (job : Job), s.blk.mayRun th 4 t job →
    f.d.toNat < 16 → f.a.toNat < 16 → f.b.toNat < 16 →
    let w := 2 ^ f.w.toNat
    let n := 8 * w
    let gives := fun (i : Instr) (g : Nat → Nat → Nat) => ∃ v : VecReg,
      Sets i s th ((t.setVec f.d v).adv 4) ∧ ∀ k, k < 64 / w → elem v w k =
        if (t.gov f.p).getLsbD (k * w) then g (elem (t.vec f.a) w k) (elem (t.vec f.b) w k) else elem (t.vec f.d) w k
    let sg := fun x => sext n x
    let cut := fun (x : Int) => (x % (2 ^ n : Nat)).toNat
    let sat := fun (x : Int) => max (-((2 ^ (n - 1) : Nat) : Int)) (min (((2 ^ (n - 1) : Nat) : Int) - 1) x)
    gives (.vadd th f) (fun x y => (x + y) % 2 ^ n) ∧ gives (.vsub th f) (fun x y => cut (sg x - sg y)) ∧
    gives (.vmul th f) (fun x y => x * y % 2 ^ n) ∧ gives (.vmulhs th f) (fun x y => cut (sg x * sg y / (2 ^ n : Nat))) ∧
    gives (.vmulhu th f) (fun x y => x * y / 2 ^ n) ∧ gives (.vmin th f) (fun x y => if sg x ≤ sg y then x else y) ∧
    gives (.vmax th f) (fun x y => if sg x ≤ sg y then y else x) ∧ gives (.vminu th f) (fun x y => min x y) ∧
    gives (.vmaxu th f) (fun x y => max x y) ∧ gives (.vand th f) (fun x y => x &&& y) ∧
    gives (.vor th f) (fun x y => x ||| y) ∧ gives (.vxor th f) (fun x y => x ^^^ y) ∧
    gives (.vsll th f) (fun x y => x * 2 ^ (y % n) % 2 ^ n) ∧ gives (.vsrl th f) (fun x y => x / 2 ^ (y % n)) ∧
    gives (.vsra th f) (fun x y => cut (sg x / (2 ^ (y % n) : Nat))) ∧
    gives (.vadds th f) (fun x y => cut (sat (sg x + sg y))) ∧ gives (.vaddus th f) (fun x y => min (x + y) (2 ^ n - 1)) ∧
    gives (.vsubs th f) (fun x y => cut (sat (sg x - sg y))) ∧ gives (.vsubus th f) (fun x y => x - y) ∧
    gives (.vavgu th f) (fun x y => (x + y + 1) / 2) ∧ gives (.vabsd th f) (fun x y => (sg x - sg y).natAbs)

/-- Table 5.5, compares: each active element sets all the bits of its lanes in pD where it holds and clears them where
not, and the bits of the other elements stay (R139). Table 5.5, the remaining forms: VSPLAT, VEXT, VINS, VPERM, VREDADD
and VMOV, each with the fields it must have 0. -/
def Obligations.VectorComparesAndMovesGiveTableValues : Prop :=
  (∀ (s : State) (th : Nat) (f : RForm) (t : Thread) (job : Job), s.blk.mayRun th 4 t job →
    f.d.toNat < 8 → f.a.toNat < 16 → f.b.toNat < 16 →
    let w := 2 ^ f.w.toNat
    let gives := fun (i : Instr) (p : Nat → Nat → Bool) => ∃ v : Dword,
      Sets i s th ((t.setPr f.d v).adv 4) ∧ ∀ k, k < 64 → v.getLsbD k =
        if (t.gov f.p).getLsbD (k / w * w) then p (elem (t.vec f.a) w (k / w)) (elem (t.vec f.b) w (k / w))
        else (t.pr f.d).getLsbD k
    gives (.vceq th f) (fun x y => x == y) ∧ gives (.vclt th f) (fun x y => decide (sext (8 * w) x < sext (8 * w) y)) ∧
    gives (.vcltu th f) (fun x y => decide (x < y))) ∧
  (∀ (s : State) (th : Nat) (f : RForm) (t : Thread) (job : Job), s.blk.mayRun th 4 t job →
    let w := 2 ^ f.w.toNat
    let n := 64 / w
    let k := (t.sc f.b).toNat % n
    let on := fun i => (t.gov f.p).getLsbD (i * w)
    let vector := fun (i : Instr) (g : Nat → Nat) => ∃ v : VecReg,
      Sets i s th ((t.setVec f.d v).adv 4) ∧ ∀ j, j < n → elem v w j = g j
    (f.d.toNat < 16 → vector (.vsplat th f) fun i =>
      if on i then (t.sc f.a).toNat % 2 ^ (8 * w) else elem (t.vec f.d) w i) ∧
    (f.a.toNat < 16 → f.p = 0 → Sets (.vext th f) s th ((t.setSc f.d (BitVec.ofNat 64 (elem (t.vec f.a) w k))).adv 4)) ∧
    (f.d.toNat < 16 → f.p = 0 → vector (.vins th f) fun i =>
      if i = k then (t.sc f.a).toNat % 2 ^ (8 * w) else elem (t.vec f.d) w i) ∧
    (f.d.toNat < 16 → f.a.toNat < 16 → f.b.toNat < 16 → f.w = 0 → vector (.vperm th f) fun i =>
      if on i then elem (t.vec f.a) 1 (elem (t.vec f.b) 1 i % 64) else elem (t.vec f.d) 1 i) ∧
    (f.a.toNat < 16 → Sets (.vredadd th f) s th ((t.setSc f.d (BitVec.ofInt 64
      (((List.range n).filter on).map fun i => sext (8 * w) (elem (t.vec f.a) w i)).sum)).adv 4)) ∧
    (f.d.toNat < 16 → f.a.toNat < 16 → vector (.vmov th f) fun i =>
      if on i then elem (t.vec f.a) w i else elem (t.vec f.d) w i))

/-! Floating point (Table 5.6). -/

/-- Table 5.6, arithmetic and compares in BF16, FP16 and FP32 (W = 0, 1, 2): each active element is the operation's
value on the elements' values, rounded once to nearest even (R140); each other element stays. R140: VFRCP and VFRSQ
complete for every operand. A NaN gives the canonical NaN, a zero the infinity of its sign and an infinity a zero; VFRCP
of a power of two is exact. What they give elsewhere inside their bound is open (log entry 2). Where the spec is open,
it follows log entry 23. -/
def Obligations.VectorFloatElementsGiveTableValues : Prop :=
  (∀ (s : State) (th : Nat) (f : RForm) (t : Thread) (job : Job) (fm : Fmt), s.blk.mayRun th 4 t job →
    floatFmt f.w.toNat = some fm → f.a.toNat < 16 → f.b.toNat < 16 →
    let w := fm.width / 8
    let on := fun k => (t.gov f.p).getLsbD (k * w)
    let va := fun k => fm.decode (elem (t.vec f.a) w k)
    let vb := fun k => fm.decode (elem (t.vec f.b) w k)
    let vd := fun k => fm.decode (elem (t.vec f.d) w k)
    (f.d.toNat < 16 →
      let gives := fun (i : Instr) (g : Nat → Fp) => ∃ v : VecReg, Sets i s th ((t.setVec f.d v).adv 4) ∧
        ∀ k, k < 64 / w → elem v w k = if on k then fm.encode (g k) else elem (t.vec f.d) w k
      gives (.vfadd th f) (fun k => (va k).add (vb k)) ∧ gives (.vfsub th f) (fun k => (va k).add (vb k).neg) ∧
      gives (.vfmul th f) (fun k => (va k).mul (vb k)) ∧ gives (.vfma th f) (fun k => (vd k).add ((va k).mul (vb k))) ∧
      gives (.vfmin th f) (fun k => if (va k).isNan then vb k else if (vb k).isNan then va k else (va k).minNum (vb k)) ∧
      gives (.vfmax th f) (fun k => if (va k).isNan then vb k else if (vb k).isNan then va k else (va k).maxNum (vb k))) ∧
    (f.d.toNat < 8 →
      let gives := fun (i : Instr) (p : Fp → Fp → Bool) => ∃ v : Dword, Sets i s th ((t.setPr f.d v).adv 4) ∧
        ∀ k, k < 64 → v.getLsbD k =
          if on (k / w) then p (va (k / w)) (vb (k / w)) else (t.pr f.d).getLsbD k
      gives (.vfclt th f) Fp.lt ∧ gives (.vfceq th f) Fp.eq)) ∧
  (∀ (s : State) (th : Nat) (f : RForm) (t : Thread) (job : Job) (fm : Fmt), s.blk.mayRun th 4 t job →
    floatFmt f.w.toNat = some fm → f.d.toNat < 16 → f.a.toNat < 16 →
    let w := fm.width / 8
    let x := fun k => fm.decode (elem (t.vec f.a) w k)
    let signBit := fun (p : Bool) => (if p then 1 else 0) * 2 ^ (fm.width - 1)
    let gives := fun (i : Instr) (ok : Nat → Nat → Prop) => ∃ (v : VecReg) (u : State), exec i s = .next u ∧
      u.pending = s.pending ∧ OnlyThread th ((t.setVec f.d v).adv 4) { s.blk with free := s.blk.free + 1 } u.blk ∧
      ∀ k, k < 64 / w →
        if (t.gov f.p).getLsbD (k * w) then
          (x k = .nan → elem v w k = fm.nanCode) ∧
          (∀ p e, x k = .fin p 0 e → elem v w k = fm.infCode + signBit p) ∧ ok k (elem v w k)
        else elem v w k = elem (t.vec f.d) w k
    gives (.vfrcp th f) (fun k r => (∀ p, x k = .inf p → r = signBit p) ∧
      ∀ p m e n, x k = .fin p m e → m = 2 ^ n → r = fm.encode ((Fp.ofInt 1).div (x k))) ∧
    gives (.vfrsq th f) (fun k r => x k = .inf false → r = 0))

/-- R141: VFCVT and VFCVTI in their narrowing, equal and widening forms. Element k of the result comes from element k of
the source, or from element H × 64 ÷ d + k where the result is wider; where it is narrower the elements past the source's
are written 0. An integer result saturates, and a NaN gives 0. Where the spec is open, it follows log entry 23. -/
def Obligations.VectorConversionsPlaceElements : Prop :=
  ∀ (s : State) (th : Nat) (f : RForm) (t : Thread) (job : Job) (fm : Fmt), s.blk.mayRun th 4 t job →
    f.d.toNat < 16 → f.a.toNat < 16 → f.b.getLsbD 4 = false →
    let h := f.b.toNat / 8 % 2
    let places := fun (i : Instr) (sw dw : Nat) (g : Nat → Nat) => ∃ v : VecReg, Sets i s th ((t.setVec f.d v).adv 4) ∧
      ∀ k, k < 64 / dw → elem v dw k =
        if (t.gov f.p).getLsbD (k * dw) then
          (if dw < sw then (if k < 64 / sw then g (elem (t.vec f.a) sw k) else 0)
           else g (elem (t.vec f.a) sw (h * (64 / dw) + k)))
        else elem (t.vec f.d) dw k
    (∀ (sw : Nat) (value : Nat → Fp), floatFmt f.w.toNat = some fm → cvtSrc (f.b.toNat % 8) = some (sw, value) →
      (fm.width / 8 ≤ sw → h = 0) → places (.vfcvt th f) sw (fm.width / 8) fun x => fm.encode (value x)) ∧
    (floatFmt (f.b.toNat % 8) = some fm → f.w ≠ 3 → (2 ^ f.w.toNat ≤ fm.width / 8 → h = 0) →
      places (.vfcvti th f) (fm.width / 8) (2 ^ f.w.toNat) fun x =>
        ((fm.decode x).toInt (8 * 2 ^ f.w.toNat) % ((2 ^ (8 * 2 ^ f.w.toNat) : Nat) : Int)).toNat)

/-! Local memory (Table 5.9). -/

/-- Table 5.9, loads: an aligned access that lies in a permitted range puts the bytes, lowest first, into sD, extended by
sign for LD.B, LD.H and LD.W and by zeros for the rest. -/
def Obligations.LoadsReadLocalMemory : Prop :=
  ∀ (s : State) (th : Nat) (f : MForm) (t : Thread) (job : Job) (l : Local), s.blk.mayRun th 4 t job →
    let a := (t.sc f.a + f.imm.signExtend 64).toNat
    let loads := fun (i : Instr) (n : Nat) (g : Nat → Dword) =>
      a % n = 0 → s.blk.local? t.job job (standOf th) a n = some l →
        Sets i s th ((t.setSc f.d (g (s.blk.locBits l n))).adv 4)
    let signed := fun n v => BitVec.ofInt 64 (sext n v)
    loads (.ldB th f) 1 (signed 8) ∧ loads (.ldBu th f) 1 (BitVec.ofNat 64) ∧ loads (.ldH th f) 2 (signed 16) ∧
    loads (.ldHu th f) 2 (BitVec.ofNat 64) ∧ loads (.ldW th f) 4 (signed 32) ∧ loads (.ldWu th f) 4 (BitVec.ofNat 64) ∧
    loads (.ldD th f) 8 (BitVec.ofNat 64)

/-- Table 5.9, stores: the low bytes of sD go to the local bytes that the address names, lowest first. Every other byte
of the scratchpads and the landing, the program store and the memory side stay as they were, and so does every other
thread. -/
def Obligations.StoresWriteTheirBytesOnly : Prop :=
  ∀ (s : State) (th : Nat) (f : MForm) (t : Thread) (job : Job) (l : Local), s.blk.mayRun th 4 t job →
    let a := (t.sc f.a + f.imm.signExtend 64).toNat
    let stores := fun (i : Instr) (n : Nat) =>
      a % n = 0 → s.blk.local? t.job job (standOf th) a n = some l →
        ∃ u, exec i s = .next u ∧ u.pending = s.pending ∧ u.blk.findThread th = some (t.adv 4) ∧
          (∀ x, x ≠ th → u.blk.findThread x = s.blk.findThread x) ∧
          (∀ k, k < n → u.blk.locGet l k = BitVec.ofNat 8 ((t.sc f.d).toNat / 256 ^ k)) ∧
          (∀ j, ¬l.covers n false j → memGet u.blk.fk.scr j = memGet s.blk.fk.scr j) ∧
          (∀ j, ¬l.covers n true j → memGet u.blk.fk.land j = memGet s.blk.fk.land j) ∧
          u.blk.fk.pstore = s.blk.fk.pstore ∧ u.blk.ext = s.blk.ext
    stores (.stB th f) 1 ∧ stores (.stH th f) 2 ∧ stores (.stW th f) 4 ∧ stores (.stD th f) 8

/-- Table 5.9, VLD and VST: 64 bytes at an address aligned to 64, by byte lanes. VLD reads the active lanes and keeps the
others of vD; VST writes the active lanes in turn and no other byte. A lane that is not active needs no permission
(R143). -/
def Obligations.VectorAccessesMoveActiveLanes : Prop :=
  ∀ (s : State) (th : Nat) (f : VMForm) (t : Thread) (job : Job), s.blk.mayRun th 4 t job → f.d.toNat < 16 →
    let a := (t.sc f.a + f.imm.signExtend 64 * 64).toNat
    let lane := fun i => s.blk.local? t.job job (standOf th) (a + i) 1
    let on := fun i => (t.gov f.p).getLsbD i
    a % 64 = 0 → (∀ i, i < 64 → on i = true → (lane i).isSome) →
    (∃ v : VecReg, Sets (.vld th f) s th ((t.setVec f.d v).adv 4) ∧
      ∀ i, i < 64 → (on i = false → elem v 1 i = elem (t.vec f.d) 1 i) ∧
        ∀ l, on i = true → lane i = some l → elem v 1 i = (s.blk.locGet l 0).toNat) ∧
    (∃ u, exec (.vst th f) s = .next u ∧ u.pending = s.pending ∧ u.blk.findThread th = some (t.adv 4) ∧
      (∀ x, x ≠ th → u.blk.findThread x = s.blk.findThread x) ∧
      (∀ i l, i < 64 → on i = true → lane i = some l →
        u.blk.locGet l 0 = BitVec.ofNat 8 (elem (t.vec f.d) 1 i)) ∧
      (∀ j, (∀ i l, i < 64 → on i = true → lane i = some l → ¬l.covers 1 false j) →
        memGet u.blk.fk.scr j = memGet s.blk.fk.scr j) ∧
      (∀ j, (∀ i l, i < 64 → on i = true → lane i = some l → ¬l.covers 1 true j) →
        memGet u.blk.fk.land j = memGet s.blk.fk.land j) ∧
      u.blk.fk.pstore = s.blk.fk.pstore ∧ u.blk.ext = s.blk.ext)

/-- Table 5.9, atomics on 8 aligned bytes: sD takes the old value, and the bytes take the sum, sB, sB where the old value
equals sD (else the old value), the greater or the lesser; no other byte changes. -/
def Obligations.AtomicsExchangeEightBytes : Prop :=
  ∀ (s : State) (th : Nat) (f : RForm) (t : Thread) (job : Job) (l : Local), s.blk.mayRun th 4 t job →
    f.w = 0 → f.p = 0 → (t.sc f.a).toNat % 8 = 0 →
    s.blk.local? t.job job (standOf th) (t.sc f.a).toNat 8 = some l →
    let old := BitVec.ofNat 64 (s.blk.locBits l 8)
    let x := t.sc f.b
    let atomic := fun (i : Instr) (new : Dword) =>
      ∃ u, exec i s = .next u ∧ u.pending = s.pending ∧ u.blk.findThread th = some ((t.setSc f.d old).adv 4) ∧
        (∀ y, y ≠ th → u.blk.findThread y = s.blk.findThread y) ∧
        (∀ k, k < 8 → u.blk.locGet l k = BitVec.ofNat 8 (new.toNat / 256 ^ k)) ∧
        (∀ j, ¬l.covers 8 false j → memGet u.blk.fk.scr j = memGet s.blk.fk.scr j) ∧
        (∀ j, ¬l.covers 8 true j → memGet u.blk.fk.land j = memGet s.blk.fk.land j) ∧
        u.blk.fk.pstore = s.blk.fk.pstore ∧ u.blk.ext = s.blk.ext
    atomic (.aadd th f) (old + x) ∧ atomic (.aswap th f) x ∧ atomic (.acas th f) (if old = t.sc f.d then x else old) ∧
    atomic (.amaxu th f) (if old.toNat < x.toNat then x else old) ∧
    atomic (.aminu th f) (if x.toNat < old.toNat then x else old)

/-! Control flow (R137, Table 5.10). -/

/-- Table 5.10: a branch that is taken goes to its own address plus 4 × OFF, one that is not goes on; JAL and JALR put
the address of the next instruction into sD, and JALR takes sA plus the immediate with bits [1:0] cleared. The targets are
those inside 0 to 2^20 − 1; JumpsOutsideRaiseFetch says what happens to the rest. -/
def Obligations.BranchesAndJumpsSetThePc : Prop :=
  ∀ (s : State) (th : Nat) (t : Thread) (job : Job), s.blk.mayRun th 4 t job →
    let pc := (t.pc.toNat : Int)
    let inside := fun (x : Int) => 0 ≤ x ∧ x < 2 ^ 20
    let goes := fun (i : Instr) (t' : Thread) (x : Int) => Sets i s th { t' with pc := BitVec.ofInt 20 x }
    (∀ f : BForm,
      let a := t.sc f.a
      let b := t.sc f.b
      let dest := pc + 4 * f.off.toInt
      let branches := fun (i : Instr) (p : Prop) =>
        (p → inside dest → goes i t dest) ∧ (¬p → Sets i s th (t.adv 4))
      branches (.beq th f) (a = b) ∧ branches (.bne th f) (a ≠ b) ∧ branches (.blt th f) (a.toInt < b.toInt) ∧
      branches (.bge th f) (b.toInt ≤ a.toInt) ∧ branches (.bltu th f) (a.toNat < b.toNat) ∧
      branches (.bgeu th f) (b.toNat ≤ a.toNat) ∧
      (f.a.toNat < 8 → f.b = 0 → branches (.bpany th f) (t.pr f.a ≠ 0) ∧ branches (.bpnone th f) (t.pr f.a = 0) ∧
        branches (.bpall th f) (∀ k, k < 64 → (t.pr f.a).getLsbD k = true))) ∧
    (∀ f : JForm, inside (pc + 4 * f.off.toInt) →
      goes (.jal th f) (t.setSc f.d (BitVec.ofNat 64 (t.pc.toNat + 4))) (pc + 4 * f.off.toInt)) ∧
    (∀ f : IForm,
      let dest := (t.sc f.a + f.imm.signExtend 64).toInt / 4 * 4
      inside dest → goes (.jalr th f) (t.setSc f.d (BitVec.ofNat 64 (t.pc.toNat + 4))) dest)

/-! Exceptions (R160 to R162). -/

/-- An instruction that raises: a reserved field, a vector or predicate number past the last, a misaligned or forbidden
access, a word that spells no instruction (R136), and TRAP always. TRAP completes: its job ends with MALFORMED, the
job's threads stop and the others go on, and the exception is counted, captured and reported; nothing else changes. R137: a jump or a taken branch to a target outside 0 to 2^20 − 1 raises
FETCH at the jump, and writes no register. Where the spec is open, it follows log entry 24. -/
def Obligations.ExceptionsAreRaised : Prop :=
  (∀ (s : State) (th : Nat) (t : Thread) (job : Job), s.blk.mayRun th 4 t job →
    let raises := fun (i : Instr) (cause word : Nat) =>
      exec i s = .next { s with blk := settle (s.blk.raise th t job cause word) }
    (∀ f : RForm, f = { d := 0, a := 0, b := 0, w := 0, p := 0 } → raises (.trap th f) excTrap (wordR 0x01 0x06 f)) ∧
    (∀ f : RForm, f.w ≠ 0 ∨ f.p ≠ 0 → raises (.add th f) excIllegal (wordR 0x02 0x00 f)) ∧
    (∀ f : RForm, f.b ≠ 0 → raises (.clz th f) excIllegal (wordR 0x02 0x12 f)) ∧
    (∀ f : IForm, 64 ≤ f.imm.toNat → raises (.slli th f) excIllegal (wordI 0x03 0x4 f)) ∧
    (∀ f : RForm, 16 ≤ f.d.toNat → raises (.vadd th f) excIllegal (wordR 0x0A 0x00 f)) ∧
    (∀ f : RForm, 8 ≤ f.d.toNat → raises (.pand th f) excIllegal (wordR 0x08 0x00 f)) ∧
    (∀ f : RForm, f.w = 3 → raises (.vfadd th f) excIllegal (wordR 0x0B 0x00 f)) ∧
    (∀ f : MForm, (t.sc f.a + f.imm.signExtend 64).toNat % 8 ≠ 0 → raises (.ldD th f) excAlign (wordM 0x10 6 f)) ∧
    (∀ f : MForm, (t.sc f.a + f.imm.signExtend 64).toNat % 4 = 0 →
      s.blk.local? t.job job (standOf th) (t.sc f.a + f.imm.signExtend 64).toNat 4 = none →
      raises (.stW th f) excAccess (wordM 0x11 4 f)) ∧
    (∀ w x : Word, decodeInstr th w x = none → fetchOk job t (instrLen w) = true →
      runWord th w x s = .next { s with blk := settle (s.blk.raise th t job excIllegal w.toNat) }) ∧
    (∀ f : RForm, f = { d := 0, a := 0, b := 0, w := 0, p := 0 } → job.ended = none → Ends (.trap th f) s fun b =>
      b.findJob t.job = some { job with ended := some 0x10 } ∧ (∀ j, j ≠ t.job → b.findJob j = s.blk.findJob j) ∧
      (∀ y t', b.findThread y = some t' → t'.job ≠ t.job) ∧
      (∀ y t', s.blk.findThread y = some t' → t'.job ≠ t.job → b.findThread y = some t') ∧
      b.rf GLB_EXC_COUNT 0 16 = min (s.blk.rf GLB_EXC_COUNT 0 16 + 1) 0xFFFF ∧ b.rb (INT_CAUSE 0) 19 = true ∧
      b.rb GLB_EXC_STAT 31 = true ∧ (s.blk.rb GLB_EXC_STAT 31 = false → b.reg GLB_EXC_WORD = BitVec.ofNat 32 (wordR 0x01 0x06 f)) ∧
      RegsOnly [GLB_EXC_STAT, GLB_EXC_THR, GLB_EXC_PC, GLB_EXC_WORD, GLB_EXC_COUNT, INT_CAUSE 0] s.blk { b with fk := { b.fk with
        threads := s.blk.fk.threads, jobs := s.blk.fk.jobs, booms := s.blk.fk.booms } })) ∧
  (∀ (s : State) (th : Nat) (t : Thread) (job : Job), s.blk.mayRun th 4 t job →
    let pc := (t.pc.toNat : Int)
    let outside := fun (x : Int) => x < 0 ∨ 2 ^ 20 ≤ x
    let fetch := fun (i : Instr) (word : Nat) =>
      exec i s = .next { s with blk := settle (s.blk.raise th t job excFetch word) }
    (∀ f : BForm, t.sc f.a = t.sc f.b → outside (pc + 4 * f.off.toInt) → fetch (.beq th f) (wordB 0x18 0 f)) ∧
    (∀ f : JForm, outside (pc + 4 * f.off.toInt) → fetch (.jal th f) (wordJ 0x1A f)) ∧
    (∀ f : IForm, outside ((t.sc f.a + f.imm.signExtend 64).toInt / 4 * 4) → fetch (.jalr th f) (wordI 0x1B 0 f)))

/-- R161, R162: an exception ends its job with the status of Table 5.16, stops every thread of it, is counted, and is
captured while VALID is 0; while VALID is 1 it sets OVERRUN and leaves the capture. Where the spec is open, it follows
log entry 26. -/
def Obligations.ExceptionIsCapturedAndEndsItsJob : Prop :=
  ∀ (b : Block) (th : Nat) (t : Thread) (job : Job) (cause word : Nat),
    b.findThread th = some t → b.findJob t.job = some job → job.ended = none → cause < 16 → job.sq < 64 →
    let c := b.raise th t job cause word
    (∀ x t', c.findThread x = some t' → t'.job ≠ t.job) ∧
    (∃ job', c.findJob t.job = some job' ∧ job'.ended = some (if cause = excAccess then 0x12 else 0x10)) ∧
    c.rf GLB_EXC_COUNT 0 16 = min (b.rf GLB_EXC_COUNT 0 16 + 1) 0xFFFF ∧ c.rb (INT_CAUSE 0) 19 = true ∧
    (b.rb GLB_EXC_STAT 31 = false →
      c.rb GLB_EXC_STAT 31 = true ∧ c.rf GLB_EXC_STAT 24 4 = cause ∧ c.rf GLB_EXC_STAT 16 6 = job.sq ∧
      c.rf GLB_EXC_STAT 0 16 = entTag job.entry ∧ c.rf GLB_EXC_PC 0 20 = (entProg job.entry + t.pc.toNat) % 2 ^ 20 ∧
      c.reg GLB_EXC_WORD = BitVec.ofNat 32 (if cause = excFetch then 0 else word)) ∧
    (b.rb GLB_EXC_STAT 31 = true →
      c.rb GLB_EXC_STAT 30 = true ∧ c.rf GLB_EXC_STAT 0 30 = b.rf GLB_EXC_STAT 0 30 ∧
      c.reg GLB_EXC_THR = b.reg GLB_EXC_THR ∧ c.reg GLB_EXC_PC = b.reg GLB_EXC_PC ∧
      c.reg GLB_EXC_WORD = b.reg GLB_EXC_WORD)

/-! Counters, epochs, handles and booms (Table 5.11). -/

/-- R107, R109, R147: SIGNAL adds sV[31:0] (1 where V is 0) to its counter when the thread's epoch is the counter's, and
lets every thread go on whose WAIT the new value satisfies; with another epoch it changes no counter. WAIT goes on at
once where the counter has reached its target, and else holds its thread. SRD reads the value. R147, R148, R149:
EPOCH.GET reads the epoch of the channel that a deck identifier names, EPOCH.SET sets the thread's; TBIND binds a handle
to an aligned descriptor that passes the checks of R165, TADV moves its base and TREL releases it. -/
def Obligations.SyncInstructionsActOnCountersEpochsAndHandles : Prop :=
  (∀ (s : State) (th : Nat) (f : SForm) (t : Thread) (job : Job) (n : Nat), s.blk.mayRun th 4 t job →
    s.blk.resolveCtr job f.sh (t.sc f.cr + f.ctr.zeroExtend 64).toNat = some n →
    let c := s.blk.counter n
    let x := if f.v = 0 then 1 else (t.sc f.v).truncate 32
    let target : BitVec 32 := if f.v = 0 then 0 else (t.sc f.v).truncate 32
    (∃ u, exec (.signal th f) s = .next u ∧ u.pending = s.pending ∧ u.blk.findThread th = some (t.adv 4) ∧
      u.blk.counter n = (if c.epoch = t.ep then { c with value := c.value + x } else c) ∧
      (∀ m, m ≠ n → u.blk.counter m = s.blk.counter m) ∧
      ∀ y t', y ≠ th → s.blk.findThread y = some t' →
        u.blk.findThread y = some (if c.epoch = t.ep then t'.released n (c.value + x) else t')) ∧
    (0 ≤ (c.value - target).toInt → Sets (.wait th f) s th (t.adv 4)) ∧
    ((c.value - target).toInt < 0 → Sets (.wait th f) s th { t with hold := .wait n target }) ∧
    Sets (.srd th f) s th ((t.setSc f.v (c.value.zeroExtend 64)).adv 4)) ∧
  (∀ (s : State) (th : Nat) (t : Thread) (job : Job), s.blk.mayRun th 4 t job →
    (∀ f : RForm, f.w = 0 → f.p = 0 →
      Sets (.epochGet th f) s th ((t.setSc f.d
        (BitVec.ofNat 64 (s.blk.rf (DK_CTRL ((t.sc f.a).toNat % 64)) 0 8))).adv 4) ∧
      Sets (.epochSet th f) s th ({ t with ep := (t.sc f.a).truncate 8 }.adv 4)) ∧
    (∀ f : IForm, f.d.toNat < 16 →
      let h := f.d.toNat
      let a := (t.sc f.a + f.imm.signExtend 64).toNat
      (∀ l, a % 128 = 0 → s.blk.local? t.job job (standOf th) a 128 = some l →
        descOk (BitVec.ofNat 1024 (s.blk.locBits l 128)) = true →
        Sets (.tbind th f) s th ({ t with t := SMap.put t.t h (BitVec.ofNat 1024 (s.blk.locBits l 128)) }.adv 4)) ∧
      (∀ d, SMap.find t.t h = some d → ∃ d' : BitVec 1024,
        Sets (.tadv th f) s th ({ t with t := SMap.put t.t h d' }.adv 4) ∧
        d'.toNat % 2 ^ 64 = (d.toNat % 2 ^ 64 + (t.sc f.a).toNat + (f.imm.signExtend 64).toNat) % 2 ^ 64 ∧
        d'.toNat / 2 ^ 64 = d.toNat / 2 ^ 64) ∧
      (f.a = 0 → f.imm = 0 → Sets (.trel th f) s th ({ t with t := SMap.erase t.t h }.adv 4))))

/-- R150, R336: BALLOC and BALLOCN take a free buffer of the smallest boom that fits and has one, in the landing or the
thread's own stand, hand its address out and note the job as its holder; a size of 0 or above 4 MiB gives 0. With no
buffer free BALLOCN gives 0 and BALLOC holds the thread as the last of the waiters. R150, R338: BFREE of a buffer that
its job holds gives 0 and returns it, so that with no waiter it is free; any other pointer gives 1, changes no holder,
and is counted. Where the spec is open, it follows log entry 55. -/
def Obligations.BuffersAreLentAndReturned : Prop :=
  (∀ (s : State) (th : Nat) (f : RForm) (t : Thread) (job : Job), s.blk.mayRun th 4 t job →
    f.w = 0 → f.p = 0 →
    let size := (t.sc f.a).toNat
    let found := s.blk.allocFrom size (standOf th)
    let gives := fun (i : Instr) => ∃ u key, exec i s = .next u ∧ u.pending = s.pending ∧ key ∈ found ∧
      s.blk.boomHolder key = none ∧ u.blk.boomHolder key = some (.job t.job) ∧
      (∀ k, k ≠ key → u.blk.boomHolder k = s.blk.boomHolder k) ∧
      u.blk.findThread th = some ((t.setSc f.d (BitVec.ofNat 64 (s.blk.bufAddr key))).adv 4) ∧
      ∀ x, x ≠ th → u.blk.findThread x = s.blk.findThread x
    (size = 0 ∨ 2 ^ 22 < size → Sets (.balloc th f) s th ((t.setSc f.d 0).adv 4) ∧
      Sets (.ballocn th f) s th ((t.setSc f.d 0).adv 4)) ∧
    (1 ≤ size → size ≤ 2 ^ 22 → found ≠ [] → gives (.balloc th f) ∧ gives (.ballocn th f)) ∧
    (1 ≤ size → size ≤ 2 ^ 22 → found = [] → Sets (.ballocn th f) s th ((t.setSc f.d 0).adv 4) ∧
      ∃ u, exec (.balloc th f) s = .next u ∧ u.pending = s.pending ∧
        u.blk.findThread th = some { t with hold := .balloc f.d.toNat size } ∧
        u.blk.fk.booms.waiters = s.blk.fk.booms.waiters ++ [.thread th] ∧
        u.blk.fk.booms.held = s.blk.fk.booms.held)) ∧
  (∀ (s : State) (th : Nat) (f : RForm) (t : Thread) (job : Job), s.blk.mayRun th 4 t job →
    f.w = 0 → f.p = 0 →
    (∀ key, s.blk.checkPtr t.job (standOf th) (t.sc f.a).toNat = .ok key → s.blk.fk.booms.waiters = [] →
      ∃ u, exec (.bfree th f) s = .next u ∧ u.pending = s.pending ∧
        u.blk.findThread th = some ((t.setSc f.d 0).adv 4) ∧
        s.blk.boomHolder key = some (.job t.job) ∧ u.blk.boomHolder key = none ∧
        ∀ k, k ≠ key → u.blk.boomHolder k = s.blk.boomHolder k) ∧
    (∀ reason pool, s.blk.checkPtr t.job (standOf th) (t.sc f.a).toNat = .error (reason, pool) →
      ∃ u, exec (.bfree th f) s = .next u ∧ u.pending = s.pending ∧
        u.blk.findThread th = some ((t.setSc f.d 1).adv 4) ∧ u.blk.fk.booms = s.blk.fk.booms ∧
        u.blk.rf BOOM_BADPTR 0 16 = min (s.blk.rf BOOM_BADPTR 0 16 + 1) 0xFFFF ∧
        u.blk.rb BOOM_BADPTR 31 = true ∧ u.blk.rb (INT_CAUSE 3) 3 = true ∧
        (s.blk.rb BOOM_BADPTR 31 = false → u.blk.rf BOOM_BADPTR 28 3 = reason)))

/-! What instructions leave alone. -/

/-- The scalar, predicate, vector and handle instructions, loads, branches, WAIT and SRD change their own thread and
nothing else but the tally, whenever the thread goes on; where it does not, they have raised an exception. -/
def Obligations.RegisterInstructionsTouchTheirThreadOnly : Prop :=
  ∀ (i : Instr) (th : Nat) (s u : State), registerOnly i = some th →
    (∀ t job, s.blk.findThread th = some t → s.blk.findJob t.job = some job → job.ended = none) →
    exec i s = .next u → (u.blk.findThread th).isSome → u.pending = s.pending ∧ ∃ t', OnlyThread th t' s.blk u.blk

/-- No instruction of a thread but tensor issue reaches the memory side, the NAND devices or the register port: what it
stores goes to the local memories of R142. Where the spec is open, it follows log entry 22. -/
def Obligations.ThreadInstructionsStayLocal : Prop :=
  ∀ (i : Instr) (s u : State), threadLocal i = true → exec i s = .next u →
    u.pending = s.pending ∧ u.blk.ext = s.blk.ext ∧ u.blk.bus = s.blk.bus ∧ u.blk.fk.pstore = s.blk.fk.pstore ∧
    u.blk.fk.rdTags = s.blk.fk.rdTags ∧ u.blk.fk.wrTags = s.blk.fk.wrTags

/-! The machine as a whole. -/

/-- A step takes the command at the front of the queue and runs it with the queue's rest (log entry 1). -/
def Obligations.StepRunsFrontCommand : Prop :=
  ∀ (c : Instr) (rest : List Instr) (b : Block),
    step { pending := c :: rest, blk := b } = exec c { pending := rest, blk := b }

/-- No command stops the machine: each answers a next state and leaves the queue as it is. Where the spec is open, it
follows log entry 75. -/
def Obligations.EveryCommandAnswersNext : Prop :=
  ∀ (c : Instr) (s : State), ∃ u, exec c s = .next u ∧ u.pending = s.pending ∧
    step { s with pending := c :: s.pending } = .next u

/-- On an empty queue 10 ns pass (log entry 1, the model's choice): each link that is up sends its oldest link-control
byte, every enabled count of the TICKS event takes one, and nothing else changes; while the VDD_FK units do not run
nothing happens. -/
def Obligations.EmptyQueueLetsTenNanosecondsPass : Prop :=
  ∀ (s : State), s.pending = [] → ∃ u, step s = .next u ∧ u.pending = [] ∧
    (s.blk.live = false → CountsOnly s.blk u.blk ∧ u.blk.fk = s.blk.fk) ∧
    (s.blk.live = true → u.blk.fk.flume = { s.blk.fk.flume with
        east := if s.blk.linkUp 0 then { s.blk.fk.flume.east with llc := s.blk.fk.flume.east.llc.drop 1 } else s.blk.fk.flume.east
        west := if s.blk.linkUp 1 then { s.blk.fk.flume.west with llc := s.blk.fk.flume.west.llc.drop 1 } else s.blk.fk.flume.west } ∧
      (∀ i, i < 256 → s.blk.rb TLY_CTRL 31 = false → s.blk.rb (TLY_CFG i) 31 = true → s.blk.rf (TLY_CFG i) 0 8 = 0x31 →
        s.blk.rf (TLY_CFG i) 16 6 = 0 → s.blk.rb (TLY_CFG i) 29 = false → s.blk.rb (TLY_CFG (i / 2 * 2 + 1)) 30 = false →
        u.blk.tallyCount i = min (s.blk.tallyCount i + 1) (2 ^ 48 - 1)) ∧
      CountsOnly s.blk { u.blk with fk := { u.blk.fk with flume := s.blk.fk.flume } })

/-- The state right after reset: nothing waits, both supplies are in range, cold reset is asserted, the block domain is in
reset, every memory lists nothing, and each register holds its Reset value. Where the spec is open, it follows log
entries 3 and 4. -/
def Obligations.ResetLeavesResetValues : Prop :=
  State.reset.pending = [] ∧ State.reset.blk.ao.phase = .held ∧ State.reset.blk.pins.coldN = false ∧
  State.reset.blk.pins.irq = false ∧ State.reset.blk.pins.vddAo = true ∧ State.reset.blk.live = false ∧
  (∀ x, State.reset.blk.sget (x / standBytes) (x % standBytes) = 0 ∧ State.reset.blk.lget x = 0 ∧
    State.reset.blk.pget x = 0 ∧ (State.reset.blk.counter x).value = 0 ∧ State.reset.blk.findJob x = none ∧
    State.reset.blk.findThread x = none ∧ State.reset.blk.findCmd x = none) ∧
  ∀ o, o % 4 = 0 → State.reset.blk.reg o =
    if o = 0x00 then 0x00030100 else if o = 0x04 then 0x6E100F1C else if o = 0x08 then 0x002C8409
    else if o = 0x0C then 0x00207F00 else if o = GLB_BYP then 0xD0000000 else if o = DMP_CTRL then 0x40000000
    else if o = SPR_INVENTORY then 0x22AA0000 else if o = SPR_STAND_MAP then 0x76543210
    else if o = PACE_CTRL then 0x00010000 else if o ∈ (List.range 248).map PACE then 0x4FFF0000
    else if o = SYNC_POOL then 0x1000 else if o = HANG_CFG then 0x80000000
    else if o ∈ (List.range 16).map CR_IRQ then 0x00010000 else if o ∈ (List.range 16).map SKD_CFG then 0x01000080
    else if o = GE_CFG then 0x04000000 else if o = LND_STAT then 0x00600000
    else if o ∈ (List.range 48).map (CAM_STR · 0x04) then 0xAC400000
    else if o ∈ (List.range 48).flatMap (fun n => [CAM_STR n 0x08, CAM_STR n 0x10]) then 0x04380780
    else if o ∈ (List.range 48).map (CAM_STR · 0x14) then 6 else if o ∈ (List.range 48).map (CAM_STR · 0x28) then 0x00607530
    else if o = LS_FMT then 0x4004 else if o = LS_SEG_RESERVE then 0x80 else if o = LS_FLUSH then 0x07D0
    else if o = LS_REFRESH then 0x005A0064 else if o = LS_WL_CFG then 0x00C8
    else if o ∈ (List.range 16).map LS_RR_DEF then BitVec.ofNat 32 ((o - LS_RR_DEF 0) / 4)
    else if o = FL_ACK_TO then 0x1388 else if o ∈ (List.range 16).map FL_ALLOW then 0x100
    else if o ∈ (List.range 64).map FL_DKD then 1 else if o ∈ (List.range 64).map FL_DKL then 0x80
    else if o = TLY_WIN then 0x03E8 else 0

/-- R66, R404: after any step with VDD_AO in range, `fk_irq` is low in cold reset, and out of it, while `fk_hclk` runs,
is high exactly while a branch that INT_TOP_EN enables has a cause pending that its own enable lets through. -/
def Obligations.InterruptOutputFollowsTheTree : Prop :=
  ∀ (s t : State), step s = .next t → t.blk.pins.vddAo = true →
    (t.blk.pins.coldN = false → t.blk.pins.irq = false) ∧
    (t.blk.pins.coldN = true → t.blk.pins.hclkOn = true →
      (t.blk.pins.irq = true ↔ ∃ i, i < 9 ∧ t.blk.rb INT_TOP_EN i = true ∧
        ∃ k, k < 32 ∧ t.blk.rb (INT_CAUSE i) k = true ∧ t.blk.rb (INT_EN i) k = true))

/-- While the VDD_FK units do not run, nothing that they do happens: no instruction, engine or event of a unit changes
any state. Only pins, accesses of the ports, answers from outside and the control island do. -/
def Obligations.UnitsRestOutsideReady : Prop :=
  ∀ (c : Instr) (s t : State), fromElsewhere c = false → s.blk.live = false → exec c s = .next t →
    t.pending = s.pending ∧ CountsOnly s.blk t.blk ∧ t.blk.fk = s.blk.fk ∧ ∀ o, t.blk.reg o = s.blk.reg o

/-! Tensor commands (5.6, chapters 6 to 12). -/

/-- Table 5.12, R152, R159: every tensor-issue instruction whose fields are legal, whose handles are defined and whose
counter and parameter block may be used sends one command to its unit, with the operands as they are now, and goes on 8
bytes further. Where the unit's queue or the thread's 32 places are full, or another thread that waits on the unit comes
first in the round, it waits in issue and keeps the counter and the parameter block that it has read. Where the spec
is open, it follows log entry 25. -/
def Obligations.TensorInstructionsSendCommands : Prop :=
  ∀ (s : State) (th : Nat) (f : TForm) (t : Thread) (job : Job), s.blk.live = true → s.blk.findThread th = some t →
    s.blk.findJob t.job = some job → t.hold = .none ∨ t.hold = .unit → fetchOk job t 8 = true →
    ∀ e ∈ ([(Instr.mmaMxi8, specMma, some 0), (Instr.mmaE4m3, specMma, some 1), (Instr.mmaE5m2, specMma, some 2),
        (Instr.mmaE3m2, specMma, some 3), (Instr.mmaE2m3, specMma, some 4), (Instr.mmaE2m1, specMma, some 5),
        (Instr.mmaI8, specMma, some 6), (Instr.mmaBf16, specMma, some 7), (Instr.mmaF16, specMma, some 8),
        (Instr.mmaZero, specMmaZero, some 0x10), (Instr.mmaStore, specMmaStore, some 0x11),
        (Instr.winConv, specConv, some 0), (Instr.winMax, specWin, some 1), (Instr.winAvg, specWin, some 2),
        (Instr.winMin, specWin, some 3), (Instr.winSum, specWin, some 4), (Instr.rsmp, specRsmp, some 0),
        (Instr.warp, specWarp, some 0), (Instr.skid, specSkid, none), (Instr.gather, specGather, none),
        (Instr.scatter, specScatter, none), (Instr.takeFrame, specTakeFrame, some 0),
        (Instr.takeRegion, specTakeRegion, some 1), (Instr.codecOpen, specCodec, some 0),
        (Instr.codecClose, specCodec, some 0), (Instr.decode, specCodec, some 0), (Instr.encode, specCodec, some 0),
        (Instr.rnext, specCodec, some 0), (Instr.wrap, specCodec, some 0), (Instr.logrd, specLogrd, some 0),
        (Instr.logwr, specLogwr, some 0), (Instr.slotPlace, specSlotPlace, some 0),
        (Instr.slotVoid, specSlotVoid, some 1)] : List ((TStep → Instr) × TSpec × Option (BitVec 5))),
    let p := e.2.1
    let g : TForm := { f with op := e.2.2.getD f.op }
    p.illegal g = false → ∀ (ta tb tc : Desc) (sig : Option Nat) (pb : BitVec 512),
    t.named p.a g.ta = some ta → t.named p.b g.tb = some tb → t.named p.c g.tc = some tc →
    (t.hold = .none ∨ t.issue = none → s.blk.issueCtr job g = .ok sig ∧ s.blk.readPb p job t th g = .ok pb) →
    (∀ x, t.hold = .unit → t.issue = some x → x.sig = sig ∧ x.pb = pb) →
    let u := s.blk.unitOf p.op g th pb
    let room := s.blk.inflight t.job t.jidx < 32 ∧ s.blk.queuedIn u < unitPlaces u ∧
      ∀ x ∈ s.blk.placeWaiters u, s.blk.placeRank u th ≤ s.blk.placeRank u x
    (room → Ends (e.1 (.issue th f)) s fun b =>
      b.findThread th = some ({ t with hold := .none, issue := none }.adv 8) ∧ (∀ x, x ≠ th → b.findThread x = s.blk.findThread x) ∧
      (∃ c, b.findCmd s.blk.nextId = some c ∧ c.unit = u ∧ c.op = p.op ∧ c.form = g ∧ c.job = t.job ∧ c.thread = th ∧
        c.jidx = t.jidx ∧ c.ta = ta ∧ c.tb = tb ∧ c.tc = tc ∧ c.pb = pb ∧ c.pbAddr = t.sc f.sx ∧ c.x = t.sc f.sx ∧ c.y = t.sc f.sy ∧
        c.epoch = t.ep ∧ c.sig = sig ∧ c.phase = .queued ∧ c.cursor = 0) ∧
      (∀ x, x ≠ s.blk.nextId → b.findCmd x = s.blk.findCmd x) ∧ b.nextId = s.blk.nextId + 1 ∧
      SMap.find b.fk.places (unitKey u) = some th ∧
      CountsOnly s.blk { b with fk := { b.fk with
        threads := s.blk.fk.threads, cmds := s.blk.fk.cmds, nextId := s.blk.fk.nextId, places := s.blk.fk.places } }) ∧
    (¬room → Ends (e.1 (.issue th f)) s fun b =>
      OnlyThread th { t with hold := .unit, issue := some { unit := waitUnit p.op g u, pb := pb, sig := sig } } s.blk b)

/-- R195: MMA.ZERO, once accepted and its unit's oldest command, leaves every word of its bank 0, CLASS EMPTY and OWNER
the issuing job, whatever the bank held, and is over with DONE. Other banks and all memory stay. R203: an accepted
MMA.I8 whose operands read adds, to each word of its bank within the views, the exact sum of the K products of INT8
elements, modulo 2^32, and is over with DONE; every other word stays. Where the spec is open, it follows log entries
31 and 33. -/
def Obligations.MatrixBanksAreZeroedAndAccumulate : Prop :=
  (∀ (s : State) (id : Nat) (c : Cmd), s.blk.live = true → s.blk.findCmd id = some c →
    c.op = .mmaZero → c.phase = .accepted → s.blk.cmdWaits c = false → s.blk.firstOf id c = true →
    Ends (.mmaZero (.work id)) s fun b =>
      (∀ m n, (b.bank c.bankKey).word m n = 0) ∧ (b.bank c.bankKey).cls = 0 ∧ (b.bank c.bankKey).owner = some c.job ∧
      (∀ k, k ≠ c.bankKey → b.bank k = s.blk.bank k) ∧
      b.findCmd id = some { c with phase := .finished stDone, active := false } ∧
      (∀ x, x ≠ id → b.findCmd x = s.blk.findCmd x) ∧
      RegsOnly [INT_CAUSE 2] s.blk { b with fk := { b.fk with banks := s.blk.fk.banks, cmds := s.blk.fk.cmds } }) ∧
  (∀ (s : State) (id : Nat) (c : Cmd) (rows cols : List (List Nat)), s.blk.live = true →
    s.blk.findCmd id = some c → c.op = .mma → c.form.op = 6 → c.phase = .accepted → s.blk.cmdWaits c = false →
    s.blk.firstOf id c = true → s.blk.rowsOf c c.ta = some rows → s.blk.rowsOf c c.tb = some cols →
    rows.length ≤ 64 → cols.length ≤ 64 →
    Ends (.mmaI8 (.work id)) s fun b =>
      (∀ m n, (b.bank c.bankKey).word m n =
        if h : m < rows.length ∧ n < cols.length then
          (s.blk.bank c.bankKey).word m n +
            BitVec.ofInt 32 (((rows[m].zip cols[n]).map fun e => sext 8 e.1 * sext 8 e.2).sum)
        else if n < 64 then (s.blk.bank c.bankKey).word m n else (b.bank c.bankKey).word m n) ∧
      (b.bank c.bankKey).cls = 2 ∧ (b.bank c.bankKey).owner = (s.blk.bank c.bankKey).owner ∧
      (∀ k, k ≠ c.bankKey → b.bank k = s.blk.bank k) ∧
      b.findCmd id = some { c with phase := .finished stDone, active := false } ∧
      CountsOnly s.blk { b with free := s.blk.free, fk := { b.fk with banks := s.blk.fk.banks, cmds := s.blk.fk.cmds } })

/-- R155, R156: a unit takes its next command and accepts it where every check passes; the first that fails ends it with
that check's status and without an access. R196: an accepted MMA gives its bank the class of its format. Where the
spec is open, it follows log entry 31. -/
def Obligations.UnitsAcceptOrRejectCommands : Prop :=
  ∀ (s : State) (id : Nat) (c : Cmd), s.blk.live = true → s.blk.findCmd id = some c → c.phase = .queued →
    s.blk.nextToAccept id c = true → s.blk.cmdWaits c = false →
    let status := if s.blk.namesNothing c then some stMalformed else if s.blk.unitGone c then some stLasting
      else if s.blk.ctxOk c = false then some stProtect else s.blk.acceptOwn c
    Ends (.commandAccept id) s fun b =>
      (∃ d, b.findCmd id = some d ∧
        d.phase = (match status with | some st => .finished st | none => .accepted) ∧
        d.unit = c.unit ∧ d.form = c.form ∧ d.job = c.job ∧ d.cursor = c.cursor ∧ d.result = c.result ∧ d.sig = c.sig) ∧
      (∀ x, x ≠ id → b.findCmd x = s.blk.findCmd x) ∧
      (∀ k, b.bank k = if status = none ∧ c.op = .mma ∧ k = c.bankKey
        then { s.blk.bank k with cls := if c.form.op = 6 then 2 else 1 } else s.blk.bank k) ∧
      CountsOnly s.blk { b with fk := { b.fk with cmds := s.blk.fk.cmds, nextId := s.blk.fk.nextId, banks := s.blk.fk.banks } }

/-- R153: a command whose work is over writes its status and result word and its progress word where its job may reach
them, adds its INC to its counter where it names one and the epoch agrees, enters its status in its thread's summary, and
leaves its unit, once every line that it has written is acknowledged (R145); until then it stays as it is. Where the
spec is open, it follows log entry 29. -/
def Obligations.CommandsEndWithResultAndSignal : Prop :=
  ∀ (s : State) (id : Nat) (c : Cmd) (st : Nat) (job : Job), s.blk.live = true → s.blk.findCmd id = some c →
    c.phase = .finished st → st < 256 → s.blk.findJob c.job = some job →
    let mine := fun (a : Agent) => (∃ k, a = .skidder k id) ∨ a = .gather id
    let owing := (∃ x ∈ s.blk.fk.owed, mine x.req.agent) ∨ (∃ e ∈ s.blk.fk.wrTags, mine e.2.req.agent) ∨
      ∃ x ∈ s.blk.fk.retries, x.req.write = true ∧ mine x.req.agent
    (owing → Ends (.commandEnd id) s fun b => CountsOnly s.blk b ∧ b.fk = s.blk.fk) ∧
    (¬owing → Ends (.commandEnd id) s fun b =>
      b.findCmd id = none ∧ (∀ x, x ≠ id → b.findCmd x = s.blk.findCmd x) ∧
      (∀ l, c.op.param = true → s.blk.cmdLocal c (c.pbAddr.toNat + 56) 8 = some l →
        (∀ d, c.progDesc = some d → dProgEn d = false) → b.locBits l 8 = st + 256 * c.result.toNat) ∧
      (∀ l d, c.progDesc = some d → dProgEn d = true → s.blk.cmdLocal c (dProg d) 8 = some l →
        b.locBits l 8 = 2 ^ 62 + st * 2 ^ 48 + c.cursor % 2 ^ 48) ∧
      (∀ n, b.counter n = if c.sig = some n ∧ (s.blk.counter n).epoch = c.epoch then
          { s.blk.counter n with value := (s.blk.counter n).value + BitVec.ofNat 32 c.form.inc.toNat }
        else s.blk.counter n) ∧
      (∃ job', b.findJob c.job = some job' ∧ job'.ended = job.ended ∧ job'.lent = job.lent ∧ job'.tstOf c.jidx =
        (if st < 0x10 then job.tstOf c.jidx else
          { first := if (job.tstOf c.jidx).count = 0 then BitVec.ofNat 8 st else (job.tstOf c.jidx).first
            last := BitVec.ofNat 8 st
            count := if (job.tstOf c.jidx).count = BitVec.allOnes 32 then BitVec.allOnes 32
              else (job.tstOf c.jidx).count + 1 })) ∧
      (∀ x, x ≠ c.job → b.findJob x = s.blk.findJob x) ∧ b.ext = s.blk.ext ∧ b.bus = s.blk.bus ∧ b.free = s.blk.free)

/-! Slots and deck channels (12.5 to 12.9). -/

/-- R346, R347: a SLOT that its channel has not checked yet, or that waits in a park, takes its row of Table 12.6: it
ends with that row's status, voids its slot and ends, starts its copy, or waits and leaves the deck as it is. R348: when
the copy of a sample is complete each of its bytes lies in the slot's place, which is laid out as D is, the slot is
placed with the command's status and the SLOT ends; every other byte of the landing stays. Where the spec is open, it
follows log entry 53. -/
def Obligations.SlotCommandsTakeTheirRowAndFillTheirPlace : Prop :=
  (∀ (s : State) (id : Nat) (c : Cmd), s.blk.live = true → s.blk.findCmd id = some c →
    c.phase = .accepted → s.blk.cmdWaits c = false → c.cursor = 0 →
    let takes := fun (i : Instr) => Ends i s fun b =>
      (match s.blk.slotOut c with
       | .done st => b.findCmd id = some { c with phase := .finished st, active := false }
       | .void st => b.findCmd id = some { c with phase := .finished st, active := false } ∧
          ∃ e, b.deck? c.chan = some e ∧ SMap.find e.closed c.slotNo = some (.voided st (some c.job))
       | .copy => b.findCmd id = some { c with cursor := 1 } ∧ b.deck? c.chan = s.blk.deck? c.chan
       | .wait => b.deck? c.chan = s.blk.deck? c.chan ∧ ∃ e, b.findCmd id = some e ∧ e.phase = .accepted ∧ e.cursor = 0 ∧
          e.waited = c.isSlot ∧ e.x = c.x ∧ e.y = c.y) ∧
      (∀ x, x ≠ id → b.findCmd x = s.blk.findCmd x) ∧ (∀ x, x ≠ c.chan → b.deck? x = s.blk.deck? x) ∧
      (∀ x, b.lget x = s.blk.lget x) ∧
      RegsOnly [DK_VOIDS c.chan, INT_CAUSE 3] s.blk { b with fk := { b.fk with cmds := s.blk.fk.cmds, decks := s.blk.fk.decks } }
    (c.op = .slotPlace → c.active = false → s.blk.slotBehind id c = false → takes (.slotPlace (.work id))) ∧
    (c.op = .slotVoid → c.active = false → s.blk.slotBehind id c = false → takes (.slotVoid (.work id))) ∧
    (c.op = .slotPlace ∨ c.op = .slotVoid → c.active = true → takes (.slotParkRecheck id))) ∧
  (∀ (s : State) (id ticks : Nat) (c : Cmd) (d : Deck) (xs : List Byte), s.blk.live = true → s.blk.findCmd id = some c →
    c.phase = .accepted → s.blk.cmdWaits c = false → c.op = .slotPlace → c.cursor = 1 → c.form.imm.toNat ≤ 1 →
    s.blk.deck? c.chan = some d → s.blk.slotOut c = .copy → s.blk.sample c d.desc (travAll (posDesc d.desc 0)) = .ok xs →
    let ts := travAll (posDesc d.desc 0)
    let at_ := fun (t : TByte) => d.place c.slotNo + slotOff d.desc t
    Ends (.slotCopyDone id ticks) s fun b =>
      b.findCmd id = some { c with phase := .finished c.form.imm.toNat, active := false } ∧
      (∃ e, b.deck? c.chan = some e ∧ SMap.find e.closed c.slotNo = some (.placed c.form.imm.toNat (some c.job)) ∧
        (∀ i, i ≠ c.slotNo → SMap.find e.closed i = SMap.find d.closed i) ∧ e.isOpen = d.isOpen ∧ e.strag = d.strag) ∧
      (∀ k t, ts[k]? = some t → (∀ j u, k < j → ts[j]? = some u → at_ u ≠ at_ t) → b.lget (at_ t) = xs.getD k 0) ∧
      (∀ x, (∀ t ∈ ts, at_ t ≠ x) → b.lget x = s.blk.lget x) ∧
      CountsOnly s.blk { b with fk := { b.fk with
        cmds := s.blk.fk.cmds, decks := s.blk.fk.decks, land := s.blk.fk.land } })

/-- R349 to R351: the closed head slot of a deck in memory is delivered once its position has been written, line by line
in storage order, or at once where a compact deck gives it none; the head moves on and the slot's status is kept. A deck
that is over closes: its STAMP is taken; once every delivery write is acknowledged its info block is written, the mask
and the status bytes, then the header but its first word, then that word, each part once the one before it is
acknowledged; then the next deck number is current and one more deck is in flight. R350, R353, R354: an enabled channel
opens its next deck once a deck buffer is free and its space fits; a head slot that has been open for longer than the
limit in force is voided as a straggler and recorded. Where the spec is open, it follows log entries 53 and 54. -/
def Obligations.DecksOpenDeliverAndClose : Prop :=
  (∀ (s : State) (c most : Nat) (d : Deck), s.blk.live = true → c < 64 → s.blk.deck? c = some d →
    s.blk.deckRuns c d = true → d.target = false → d.fail = none →
    let writes := fun (b : Block) (o : Owing) => b.fk.owed = o.b.fk.owed ∧ b.fk.serial = o.b.fk.serial
    let others := fun (b : Block) (regs : List Nat) => (∀ x, x ≠ c → b.deck? x = s.blk.deck? x) ∧
      RegsOnly regs s.blk { b with fk := { b.fk with
        decks := s.blk.fk.decks, owed := s.blk.fk.owed, serial := s.blk.fk.serial } }
    (∀ x, d.closing = 0 → s.blk.deckEnds c d = false → SMap.find d.closed (s.blk.dkHead c) = some x →
      s.blk.dkHead c < 8191 →
      let pos := if d.compact = false then some (s.blk.dkHead c) else if x.isPlaced = true then some d.pos else none
      let src := if x.isPlaced = true then some (d.place (s.blk.dkHead c)) else none
      let o := fun p => s.blk.oweRun (.landing c) most (s.blk.mapMust d.ctx)
        ((s.blk.posWrites d (s.blk.dkDeck c) p src).drop d.cursor)
      (∀ p, pos = some p → (o p).halt = none) →
      Ends (.slotDeliver c most) s fun b =>
        b.dkHead c = s.blk.dkHead c + 1 ∧
        (∃ e, b.deck? c = some e ∧ SMap.find e.closed (s.blk.dkHead c) = none ∧
          SMap.find e.status (s.blk.dkHead c) = some x.status ∧ e.cursor = 0 ∧ e.sending = [] ∧
          e.valid = d.valid + (if x.isPlaced = true then 1 else 0) ∧
          e.voided = d.voided + (if x.isPlaced = true then 0 else 1) ∧
          e.pos = d.pos + (if d.compact = true ∧ x.isPlaced = true then 1 else 0)) ∧
        (∀ p, pos = some p → writes b (o p)) ∧ (pos = none → b.fk.owed = s.blk.fk.owed) ∧ others b [DK_POS c]) ∧
    (d.closing = 0 → s.blk.deckEnds c d = true → d.compact = false → Ends (.deckClose c most) s fun b =>
      b.deck? c = some { d with closing := 2, short := false, stamp := s.blk.now, cursor := 0, sending := [] } ∧
      b.fk.owed = s.blk.fk.owed ∧ others b []) ∧
    (s.blk.deckFlows c = [] → s.blk.acked (· == .landing c) = true →
      (d.closing = 2 → Ends (.deckClose c most) s fun b =>
        b.deck? c = some { d with closing := 3, cursor := 0 } ∧ b.fk.owed = s.blk.fk.owed ∧ others b []) ∧
      (d.closing = 3 → s.blk.dkInflight c < 15 → s.blk.dkDeck c + 1 < 2 ^ 24 →
        let m := d.maskBytes + d.statusBytes
        let stop := if d.cursor < m then m else if d.cursor < m + 60 then m + 60 else m + 64
        let block := bytesAt (d.infoAddr (s.blk.dkDeck c)) (d.infoBytes (s.blk.dkDeck c) (s.blk.deckEpoch c))
        let inOrder := block.drop 64 ++ (block.take 64).drop 4 ++ block.take 4
        let o := s.blk.oweRun (.landing c) most (s.blk.mapSkip d.ctx) ((inOrder.take stop).drop d.cursor)
        o.halt = none →
        Ends (.deckClose c most) s fun b => writes b o ∧
          (d.cursor < m + 60 → b.deck? c = some { d with cursor := stop } ∧ others b []) ∧
          (m + 60 ≤ d.cursor → b.dkDeck c = s.blk.dkDeck c + 1 ∧ b.dkHead c = 0 ∧ b.dkInflight c = s.blk.dkInflight c + 1 ∧
            (∃ e, b.deck? c = some e ∧ e.isOpen = false ∧ e.closed = [] ∧ e.status = [] ∧ e.valid = 0 ∧ e.voided = 0 ∧
              e.closing = 0) ∧ others b [DK_POS c, DK_DECK c, DK_STAT c])))) ∧
  (∀ (s : State) (c age : Nat) (d : Deck), s.blk.live = true → c < 64 → s.blk.deck? c = some d → s.blk.deckEn c = true →
    (d.isOpen = false → s.blk.dkInflight c < d.dbuf → s.blk.spaceFits d = true →
      (∀ e ∈ s.blk.fk.cmds, e.2.copying = true → e.2.chan ≠ c) →
      Ends (.deckOpen c) s fun b => b.deck? c = some { d with isOpen := true } ∧
        (∀ x, x ≠ c → b.deck? x = s.blk.deck? x) ∧
        CountsOnly s.blk { b with fk := { b.fk with decks := s.blk.fk.decks } }) ∧
    (∀ l, s.blk.stragLimit c d = some l → l < age → s.blk.deckRuns c d = true → d.closing = 0 →
      s.blk.deckEnds c d = false → SMap.find d.closed (s.blk.dkHead c) = none →
      Ends (.stragglerVoid c age) s fun b =>
        (∃ e, b.deck? c = some e ∧ SMap.find e.closed (s.blk.dkHead c) = some (.voided stStraggler none) ∧
          (s.blk.dkDeck c, s.blk.dkHead c) ∈ e.strag ∧ s.blk.dkHead c ∈ e.late) ∧
        b.rf (DK_VOIDS c) 16 16 = min (s.blk.rf (DK_VOIDS c) 16 16 + 1) 0xFFFF ∧ b.rb (INT_CAUSE 3) 5 = true ∧
        RegsOnly [DK_VOIDS c, DK_STAT c, INT_CAUSE 3] s.blk { b with fk := { b.fk with decks := s.blk.fk.decks } }))

/-- R345, R350, R355: the host's writes of a deck channel. An enable is carried out with a new epoch and deck 0 where the
descriptor translates and is read and every check passes, and is refused otherwise; ADVANCE ends the SLOTs that wait or copy
with EPOCH_STALE and opens the closed slots again, the one in delivery apart; a disable ends the SLOTs with TEARDOWN and
discards the deck; DK_RELEASE takes decks off INFLIGHT, down to 0. Where the spec is open, it follows log entry 54. -/
def Obligations.DeckChannelWritesTakeEffect : Prop :=
  ∀ (s : State) (c : Nat) (data : Word), c < 64 → s.blk.portCase (DK_CTRL c) = .go →
    let now := s.blk.setReg (DK_CTRL c) ((s.blk.reg (DK_CTRL c) &&& 0xF1C0FFFF) ||| (data &&& 0x0E3F0000))
    let acked := fun (b : Block) => b.bus = { s.blk.bus with ack := true, rdata := 0, err := false }
    let slots := fun (b : Block) (st : Nat) => ∀ id e, s.blk.findCmd id = some e →
      e.parked = true ∨ e.copying = true ∨ e.waited = true →
      e.phase = .accepted → e.chan = c → ∃ e', b.findCmd id = some e' ∧ e'.phase = .finished st
    (s.blk.deckEn c = false → data.getLsbD 31 = true →
      Ends (.deckChannelEnable c data) s fun b => acked b ∧
        (match now.xlateNow (bits data 16 6) (s.blk.pair (DK_DESC_LO c)) false with
         | none => b.rb (DK_STAT c) 30 = true ∧ b.deckEn c = false ∧ b.rb (INT_CAUSE 3) 4 = true
         | some pa =>
            if (false, pa / 64) ∉ s.blk.fk.accounted ∧ (false, pa / 64 + 1) ∉ s.blk.fk.accounted ∧
              now.dkOk c (now.dkConfig c (BitVec.ofNat 1024 (s.blk.xnat pa 128))) = true then
              b.deckEn c = true ∧ b.rf (DK_CTRL c) 0 8 = (s.blk.rf (DK_CTRL c) 0 8 + 1) % 256 ∧ b.dkDeck c = 0 ∧
              b.dkHead c = 0 ∧ b.dkInflight c = 0 ∧
              ∃ e, b.deck? c = some e ∧ e.isOpen = true ∧ e.closed = [] ∧ e.desc = BitVec.ofNat 1024 (s.blk.xnat pa 128)
            else b.rb (DK_STAT c) 30 = true ∧ b.deckEn c = false ∧ b.rb (INT_CAUSE 3) 4 = true) ∧
        (∀ x, x ≠ c → b.deck? x = s.blk.deck? x) ∧
        RegsOnly [DK_CTRL c, DK_STAT c, DK_POS c, DK_DECK c, INT_CAUSE 3] s.blk
          { b with bus := s.blk.bus, fk := { b.fk with decks := s.blk.fk.decks, accounted := s.blk.fk.accounted } }) ∧
    (s.blk.deckEn c = true → data.getLsbD 31 = false → Ends (.deckChannelDisable c data) s fun b => acked b ∧
      b.deckEn c = false ∧ slots b stTeardown ∧ b.dkInflight c = 0 ∧
      (∀ d, s.blk.deck? c = some d → ∃ e, b.deck? c = some e ∧ e.isOpen = false ∧ e.closed = [] ∧
        e.downEpoch = some (s.blk.deckEpoch c)) ∧ (∀ x, x ≠ c → b.deck? x = s.blk.deck? x)) ∧
    (s.blk.deckEn c = true → data.getLsbD 31 = true → data.getLsbD 30 = true → Ends (.deckAdvance c data) s fun b => acked b ∧
      b.deckEn c = true ∧ b.rf (DK_CTRL c) 0 8 = (s.blk.rf (DK_CTRL c) 0 8 + 1) % 256 ∧ slots b stEpochStale ∧
      b.dkDeck c = s.blk.dkDeck c ∧ b.dkHead c = s.blk.dkHead c ∧
      (∀ d, s.blk.deck? c = some d → ∃ e, b.deck? c = some e ∧ e.isOpen = d.isOpen ∧ e.strag = [] ∧
        ∀ i, i ≠ s.blk.dkHead c → SMap.find e.closed i = none) ∧ (∀ x, x ≠ c → b.deck? x = s.blk.deck? x)) ∧
    (s.blk.portCase (DK_RELEASE c) = .go → Ends (.dkRelease c data) s fun b => acked b ∧
      b.dkInflight c = s.blk.dkInflight c - bits data 0 4 ∧
      RegsOnly [DK_STAT c] s.blk { b with bus := s.blk.bus })

/-- R276, R286, R293: a TAKE that has waited for its WAIT_US while its stream has nothing to take ends with STALE and no
frame; a codec command whose turn it is takes a pipe that is free; a complete slice other than the last has its offset
written to its table entry and its counter signalled by 1. Where the spec is open, it follows log entries 43 and 48. -/
def Obligations.TakesTimeOutPipesStartSlicesSignal : Prop :=
  ∀ (s : State) (id : Nat) (c : Cmd), s.blk.live = true → s.blk.findCmd id = some c → c.phase = .accepted →
    s.blk.cmdWaits c = false →
    (c.op = .takeFrame ∨ c.op = .takeRegion → pbW c.pb 3 ≠ 0 → s.blk.firstOf id c = true →
      (s.blk.str (bits c.pb 0 6)).waits = true →
      Ends (.takeWaitTimeout id) s fun b =>
        b.findCmd id = some { c with
          phase := .finished stStale, active := false
          result := BitVec.ofNat 56 (0xFFFFFFFF * 2 ^ 24 + 2 ^ 8 + min 255 (c.scratch.headD 0)) } ∧
        (∀ x, x ≠ id → b.findCmd x = s.blk.findCmd x) ∧
        CountsOnly s.blk { b with fk := { b.fk with cmds := s.blk.fk.cmds } }) ∧
    (∀ kind n, c.op = .codec → s.blk.pipeKind c = some (kind, n) → c.active = false → s.blk.codecNext id c = true →
      ((s.blk.fk.cmds.filter fun e => e.2.op == .codec && e.2.phase == .accepted &&
        (s.blk.pipeKind e.2).map (·.1) == some kind && e.2.active).length < n) →
      (∀ e ∈ s.blk.fk.cmds, e.2.op = .codec → e.2.phase = .accepted → (s.blk.pipeKind e.2).map (·.1) = some kind →
        e.2.active = false → e.2.order < c.order → s.blk.codecNext e.1 e.2 = false) →
      Ends (.codecPipeStart id) s fun b =>
        b.findCmd id = some { c with active := true } ∧ (∀ x, x ≠ id → b.findCmd x = s.blk.findCmd x) ∧
        CountsOnly s.blk { b with fk := { b.fk with cmds := s.blk.fk.cmds } }) ∧
    (∀ (r : EncRun) (x : Session), c.op = .codec → cdCmd c.pb = 4 → encRun c = some r →
      s.blk.sess (cdNum c.pb) = some x → r.row = enSliceEnd x r.slices → r.slices + 1 < enSlices x →
      Ends (.encodeSliceDone id c.cursor) s fun b =>
        (∃ e, b.findCmd id = some e ∧ e.phase = .accepted ∧
          encRun e = some { r with slices := r.slices + 1, sliceBytes := c.cursor }) ∧
        (∀ l, s.blk.cmdLocal c (pbW c.pb 3 + 4 * r.slices) 4 = some l → pbW c.pb 3 ≠ 0 →
          b.locBits l 4 = c.cursor % 2 ^ 32) ∧
        (∀ k, s.blk.sliceCtr c = some (some k) → (s.blk.counter k).epoch = c.epoch →
          (b.counter k).value = (s.blk.counter k).value + 1) ∧
        (∀ k, s.blk.sliceCtr c ≠ some (some k) → b.counter k = s.blk.counter k) ∧
        (∀ y, y ≠ id → b.findCmd y = s.blk.findCmd y) ∧ b.ext = s.blk.ext ∧ b.ao = { s.blk.ao with regs := b.ao.regs })

/-! Supplies, resets, straps (2.2, 2.3, 17.1). -/

/-- R39, R40, R51, Table 2.6: asserting cold reset returns every register of the control island to its Reset value,
lowers the triggers and the interrupt and puts the block domain into reset; its release samples the straps, reduced to a
valid set, and reports a reduction. R51, R452: while VDD_AO is out of range nothing that the control island holds is
defined (log entries 2 and 3: its registers and its output take free values) and no access is acknowledged; when it
comes back in cold reset the island holds its Reset values. Where the spec is open, it follows log entries 16, 17 and
74. -/
def Obligations.ControlIslandFollowsItsPins : Prop :=
  (∀ (s : State), s.blk.pins.vddAo = true →
    (s.blk.pins.coldN = true → Ends .coldResetAssert s fun b =>
      b.pins = { s.blk.pins with coldN := false, irq := false } ∧ (∀ o, isAo o = true → b.reg o = regReset o) ∧
      b.inReset = true ∧ b.live = false ∧ b.ao.rst = [] ∧ b.ao.dump = [] ∧ b.fk = { s.blk.fk with trig := [] } ∧
      b.ext = s.blk.ext ∧ b.bus = { s.blk.bus with ack := false, rdata := 0, err := false, cap := [] }) ∧
    (∀ st : Straps, s.blk.pins.coldN = false → Ends (.coldResetRelease st) s fun b =>
      let r : Straps := { st with
        mem := if st.mem = 0xF then 0xF else if st.mem &&& 3 = 3 then 3 else if st.mem &&& 1 = 1 then 1 else 0
        fe := st.fe && st.fw, fw := st.fe && st.fw }
      b.ao.straps = r ∧ b.rb GLB_STATUS 7 = decide (r ≠ st) ∧ b.ao.phase = s.blk.ao.phase ∧
      RegsOnly [GLB_STATUS] s.blk { b with
        pins := { b.pins with coldN := s.blk.pins.coldN }, ao := { b.ao with straps := s.blk.ao.straps } }) ∧
    (Ends .warmResetRelease s fun b => CountsOnly { s.blk with pins := { s.blk.pins with warmN := true } } b) ∧
    (Ends .pwrokRise s fun b => CountsOnly { s.blk with pins := { s.blk.pins with pwrok := true, vddFk := true } } b) ∧
    (Ends .pfailAssert s fun b => CountsOnly { s.blk with pins := { s.blk.pins with pfailN := false } } b) ∧
    (Ends .pfailDeassert s fun b => CountsOnly { s.blk with pins := { s.blk.pins with pfailN := true } } b)) ∧
  (∀ (s : State) (off : BitVec 20) (data : Word),
    (s.blk.pins.vddAo = true → Ends .vddAoExcursion s fun b => b.pins.vddAo = false ∧ b.live = false ∧ b.fk = s.blk.fk ∧
      b.ext = s.blk.ext ∧ b.bus = s.blk.bus) ∧
    (s.blk.pins.vddAo = false → s.blk.pins.coldN = false → Ends .vddAoInRange s fun b =>
      b.pins.vddAo = true ∧ b.pins.irq = false ∧ b.inReset = true ∧ b.ext = s.blk.ext ∧
      ∀ o, isAo o = true → b.reg o = regReset o) ∧
    (s.blk.pins.vddAo = false → Ends (.registerWrite off data) s fun b =>
      b.bus = { s.blk.bus with ack := false } ∧ b.ao = s.blk.ao ∧ b.fk = s.blk.fk ∧ b.ext = s.blk.ext))

/-- R52 to R54: warm reset, PWROK low and the loss of VDD_FK each put the block domain into reset; the bypass is forced, the
triggers fall, and the control island keeps every other register but the pace monitors. The loss of VDD_FK at once loses
all that its units hold. While VDD_FK is off and from step 5 of Table 2.7 on, each output of the VDD_FK ports has its reset
state. Where the spec is open, it follows log entry 16. -/
def Obligations.EveryResetCauseStopsTheBlockDomain : Prop :=
  (∀ b : Block, b.pins.vddFk = false ∨ b.ao.phase = .held →
    b.outQuiet = true ∧ b.outTrig = 0 ∧ b.outWpN = false ∧ ∀ n, b.outReqVld n = false ∧ b.outRspRdy n = false ∧
      b.outCamEnable n = 0 ∧ b.outCamShutdn n = true ∧ b.outCeN n = 0xFF ∧ b.outDlyRd n = 0x40 ∧ b.outDlyWr n = 0x40) ∧
  ∀ (s : State), s.blk.pins.vddAo = true →
    (s.blk.inReset = true →
      (Ends .warmResetAssert s fun b => CountsOnly { s.blk with pins := { s.blk.pins with warmN := false } } b) ∧
      (Ends .pwrokFall s fun b => CountsOnly { s.blk with pins := { s.blk.pins with pwrok := false } } b)) ∧
    (s.blk.inReset = false →
    let keeps := fun (b : Block) => s.blk.ao.rst = [] → ∀ o, isAo o = true → o ≠ GLB_BYP → (∀ i, i < 248 → o ≠ PACE i) → b.reg o = s.blk.reg o
    (Ends .warmResetAssert s fun b => b.ao.phase = .entering ∧ b.pins.warmN = false ∧ b.rb GLB_BYP 30 = true ∧
      b.fk = { s.blk.fk with trig := [], entered := [] } ∧ b.ext = s.blk.ext ∧ keeps b) ∧
    (Ends .pwrokFall s fun b => b.ao.phase = .entering ∧ b.pins.pwrok = false ∧ b.rb GLB_BYP 30 = true ∧
      b.fk = { s.blk.fk with trig := [], entered := [] } ∧ b.ext = s.blk.ext ∧ keeps b) ∧
    (Ends .vddFkLoss s fun b => b.ao.phase = .held ∧ b.pins.vddFk = false ∧ b.fk = Fk.reset ∧ b.rb GLB_BYP 30 = true ∧
      b.ext.mem = s.blk.ext.mem ∧ keeps b))

/-- Tables 2.6 and 2.7, R447: the bypass closes where `fk_fclk` runs; the domain's state is reset once every memory tag is back and the NAND targets are idle or
have had their 10 ms; out of reset the block tests itself unless it has since the last cold reset, and is then ready,
with all SRAM 0, unless the test found a fatal failure. Where the spec is open, it follows log entries 17 and 73. -/
def Obligations.BlockDomainGoesThroughReset : Prop :=
  ∀ (s : State), s.blk.pins.vddAo = true →
    (s.blk.ao.phase = .entering →
      (Ends .nandIdleLimit s fun b =>
        b.ao.nandWaitOver = true ∧ CountsOnly s.blk { b with ao := { b.ao with nandWaitOver := s.blk.ao.nandWaitOver } }) ∧
      Ends .blockDomainResetEntry s fun b => b.rb GLB_BYP 31 = (s.blk.rb GLB_BYP 31 || s.blk.pins.fclkOn) ∧ b.ext.mem = s.blk.ext.mem ∧
        (s.blk.quiet = true → s.blk.ao.nandWaitOver = true ∨ s.blk.fk.ls.ops = [] →
          b.ao.phase = .held ∧ b.fk = Fk.reset) ∧
        (s.blk.quiet = false ∨ (s.blk.ao.nandWaitOver = false ∧ s.blk.fk.ls.ops ≠ []) → b.ao.phase = .entering ∧ b.fk.scr = s.blk.fk.scr ∧ b.fk.jobs = s.blk.fk.jobs)) ∧
    (s.blk.ao.phase = .held → s.blk.pins.coldN = true → s.blk.pins.warmN = true → s.blk.pins.pwrok = true →
      s.blk.pins.vddFk = true → s.blk.ao.straps.mem ≠ 0 → s.blk.rb SPR_SELFTEST 30 = false →
      Ends .blockDomainResetExit s fun b =>
        b.ao.phase = (if s.blk.rb SPR_SELFTEST 31 = true then .ready else .selfTest) ∧
        b.live = s.blk.rb SPR_SELFTEST 31 ∧ b.fk = s.blk.fk ∧ b.ext = s.blk.ext ∧
        ∀ o, o ≠ RST_TIME → b.reg o = s.blk.reg o) ∧
    (∀ r : SelfTest, s.blk.ao.phase = .selfTest → s.blk.pins.coldN = true →
      Ends (.selfTestDone r) s fun b => b.rb SPR_SELFTEST 31 = true ∧ b.rf SPR_SELFTEST 0 16 = min r.timeUs 0xFFFF ∧
        b.fk = Fk.reset ∧
        b.ao.phase = (if b.rb SPR_SELFTEST 30 = true then .held else .ready) ∧ (r.fatal = true → b.ao.phase = .held) ∧
        (r.repairs = [] → r.fenced = [] → r.stand8Engine = false → r.stand8Cores = 0 → r.lasting = [] → r.transient = [] →
          r.fatal = false → b.ext = s.blk.ext ∧ ∀ o, isAo o = true → o ≠ SPR_SELFTEST → b.reg o = s.blk.reg o))

/-! The register port (2.5, R13 to R16). -/

/-- R65: an access that targets a register of the control island in cold reset, other than an identity register, or a unit
that is off or in reset, and an access whose target gives no answer, completes with data 0 and `fk_h_err` 1 and has no
effect. Where the spec is open, it follows log entry 10. -/
def Obligations.FailedAccessesHaveNoEffect : Prop :=
  ∀ (s : State) (off : BitVec 20) (data : Word) (wr : Bool), s.blk.pins.vddAo = true → s.blk.pins.hclkOn = true →
    let o := off.toNat / 4 * 4
    let failed := fun (i : Instr) => Ends i s fun b =>
      b.bus = { s.blk.bus with ack := true, rdata := 0, err := true } ∧ b.ao = s.blk.ao ∧ b.fk = s.blk.fk ∧
      b.ext = s.blk.ext ∧ b.free = s.blk.free ∧ b.pins = { s.blk.pins with irq := b.pins.irq }
    ((16 ≤ o ∧ onAo o = true ∧ s.blk.pins.coldN = false) ∨
        (onAo o = false ∧ onFk o = true ∧ (s.blk.live = false ∨ s.blk.unitInReset o = true)) →
      failed (.registerWrite off data) ∧ failed (.loReadCapture off) ∧ (isHi o = true → failed (.hiWriteCommit off data)) ∧
      (0xC0000 ≤ o → failed (.pstoreWindowWrite off data))) ∧
    (onAo o = false → onFk o = true → s.blk.live = true → s.blk.unitInReset o = false →
      failed (.registerAccessTimeout wr off))

/-- R15, R16: a write to the `_LO` register of a pair is staged and changes no register; a write to `_HI` commits both halves,
the staged `_LO` value or, where none is staged, the `_LO` value that the pair holds. A read of `_LO` captures the high
half, which the next read of `_HI` returns. -/
def Obligations.RegisterPairsCommitTogether : Prop :=
  ∀ (s : State) (o : Nat) (lo hi data : Word), s.blk.portCase o = .go → s.blk.portCase (o + 4) = .go →
    ((o, lo, hi) ∈ ([(0x8008, 0xFFFFFFFF, 0xFFFFFFFF), (XL_INV_VA_LO, 0xFFFF0000, 0x0000FFFF),
        (LS_MEM_BASE_LO, 0xFFFFF000, 0x000FFFFF)] : List (Nat × Word × Word)) ∨
      (∃ r, r < 16 ∧ ((o = CR_BASE_LO r ∧ lo = 0xFFFFF000 ∧ hi = 0x000FFFFF) ∨
        ((o = FL_RXP r 0x04 ∨ o = FL_RXP r 0x10) ∧ lo = 0xFFFFFFC0 ∧ hi = 0x0000FFFF))) ∨
      (∃ c, c < 64 ∧ ((o = DK_DESC_LO c ∧ lo = 0xFFFFFF80 ∧ hi = 0x0000FFFF) ∨
        (o = DK_INFO_LO c ∧ lo = 0xFFFFFFC0 ∧ hi = 0x0000FFFF)))) →
    let acked := fun (b : Block) (v : Word) => b.bus.ack = true ∧ b.bus.rdata = v ∧ b.bus.err = false
    let low := (SMap.find s.blk.fk.stage o).getD (s.blk.reg o)
    let high := fun (i : Instr) => Ends i s fun b => acked b 0 ∧
      b.reg o = (s.blk.reg o &&& ~~~lo) ||| (low &&& lo) ∧ b.reg (o + 4) = (s.blk.reg (o + 4) &&& ~~~hi) ||| (data &&& hi) ∧
      SMap.find b.fk.stage o = none ∧
      RegsOnly [o, o + 4] s.blk { b with bus := s.blk.bus, fk := { b.fk with stage := s.blk.fk.stage } }
    (Ends (.registerWrite (BitVec.ofNat 20 o) data) s fun b => acked b 0 ∧ SMap.find b.fk.stage o = some data ∧
      CountsOnly s.blk { b with bus := s.blk.bus, fk := { b.fk with stage := s.blk.fk.stage } }) ∧
    high (.registerWrite (BitVec.ofNat 20 (o + 4)) data) ∧ high (.hiWriteCommit (BitVec.ofNat 20 (o + 4)) data) ∧
    (Ends (.loReadCapture (BitVec.ofNat 20 o)) s fun b =>
      (SMap.find s.blk.bus.cap o = none → acked b (s.blk.readReg o)) ∧
      SMap.find b.bus.cap (o + 4) = some (s.blk.readReg (o + 4)) ∧ CountsOnly s.blk { b with bus := s.blk.bus }) ∧
    Ends (.loReadCapture (BitVec.ofNat 20 (o + 4))) s fun b =>
      acked b ((SMap.find s.blk.bus.cap (o + 4)).getD (s.blk.readReg (o + 4))) ∧ SMap.find b.bus.cap (o + 4) = none ∧
      CountsOnly s.blk { b with bus := s.blk.bus }

/-- R13, R14, R105, R452: a write to a plain register sets its writable bits and ignores the rest; a write to the
program-store window stores its word in the selected quarter and nothing else; an access made while `fk_hclk` is stopped
begins when the clock runs again. Where the spec is open, it follows log entry 11. -/
def Obligations.WritesReachRegistersAndProgramStore : Prop :=
  ∀ (s : State) (o : Nat) (data : Word), s.blk.portCase o = .go →
    let acked := fun (b : Block) => b.bus = { s.blk.bus with ack := true, rdata := 0, err := false }
    (∀ rw : Word, (o, rw) ∈ ([(INT_TOP_EN, 0x1FF), (GLB_PSTORE_BANK, 3), (PACE_FLOOR, 0x80000FFF), (SYNC_SEL, 0xFFF),
        (HANG_CFG, 0x80000000), (XL_CTX_SEL, 0x3F), (GE_CFG, 0x1FFF0000), (CAM_TBL_SEL, 0x13F),
        (LS_SEG_RESERVE, 0x3FFFFF), (FL_ACK_TO, 0xFFFF)] : List (Nat × Word)) ∨
        (o ∈ (List.range 9).map INT_EN ∧ rw = 0xFFFFFFFF) ∨ (o ∈ (List.range 16).map SKD_CFG ∧ rw = 0x1FFF1FFF) ∨
        (o ∈ (List.range 8).map TLY_USER_EN ∧ rw = 0xFFFFFFFF) ∨ (o ∈ (List.range 16).map FL_ALLOW ∧ rw = 0x7FF) →
      (FL_CFG ≤ o → o < TLY_CFG 0 → s.blk.fk.flume.rxHeld = [] ∧ s.blk.fk.flume.opens = [] ∧ (s.blk.link 0).input = [] ∧ (s.blk.link 1).input = []) →
      let writes := fun (i : Instr) (t : State) => Ends i t fun b => acked b ∧
        b.reg o = (s.blk.reg o &&& ~~~rw) ||| (data &&& rw) ∧ RegsOnly [o] s.blk { b with bus := s.blk.bus }
      writes (.registerWrite (BitVec.ofNat 20 o) data) s ∧
      (s.blk.bus.held = [] → writes .hclkRestart { s with blk := { s.blk with
        pins := { s.blk.pins with hclkOn := false }
        bus := { s.blk.bus with held := [{ write := true, off := BitVec.ofNat 20 o, data := data }] } } })) ∧
    (0xC0000 ≤ o → o < 0x100000 → o % 4 = 0 →
      let x := s.blk.rf GLB_PSTORE_BANK 0 2 * 2 ^ 18 + (o - 0xC0000)
      let stored := fun (i : Instr) => Ends i s fun b => acked b ∧ b.pword x = data ∧ b.readReg o = data ∧
        (∀ y, y < x ∨ x + 4 ≤ y → b.pget y = s.blk.pget y) ∧
        CountsOnly s.blk { b with bus := s.blk.bus, fk := { b.fk with pstore := s.blk.fk.pstore } }
      stored (.registerWrite (BitVec.ofNat 20 o) data) ∧ stored (.pstoreWindowWrite (BitVec.ofNat 20 o) data)) ∧
    (o < 2 ^ 20 → o % 4 = 0 → ∀ held : Block, held = { s.blk with pins := { s.blk.pins with hclkOn := false } } →
      (Ends (.registerWrite (BitVec.ofNat 20 o) data) { s with blk := held } fun b =>
        b.bus = { held.bus with ack := false,
                                held := held.bus.held ++ [{ write := true, off := BitVec.ofNat 20 o, data := data }] } ∧
        b.ao = held.ao ∧ b.fk = held.fk ∧ b.ext = held.ext) ∧
      (s.blk.bus.held = [] → (Ends .hclkRestart { s with blk := held } fun b => CountsOnly s.blk b) ∧
        exec .hclkRestart { s with blk := { held with
          bus := { held.bus with held := [{ write := true, off := BitVec.ofNat 20 o, data := data }] } } } =
        exec (.registerWrite (BitVec.ofNat 20 o) data) s))

/-! Timebase, memory port, bypass, pace (2.3, 2.4, 3). -/

/-- R70 to R72, R453: a sample is taken while the timebase is present and the block domain is out of reset; a step of it
raises TB_STEP and ends every pulse. A trigger rises once the timebase has reached its target, with the width then in
force, and falls once its width has passed, at an edge after its rise; a write to its registers schedules its next
target where the output is low. R47, R76, R86, R87: while `fk_fclk` runs, the bypass closes while a condition of it
holds and opens once none does, when FORCE is clear; a pace window gives each island that was on throughout its rate and
the least rate so far, and CLR_MIN returns every MIN to all ones. Where the spec is open, it follows log entries 12,
13 and 18. -/
def Obligations.TriggersBypassAndPaceFollowTheirConditions : Prop :=
  (∀ (s : State) (now : Dword), s.blk.live = true → s.blk.ao.straps.tb = true → s.blk.fk.cam = [] →
    (∀ i, i = Instr.timebaseSample now ∨ i = Instr.tbClkRestart now → Ends i s fun b => b.now = now.toNat ∧ b.ao.sampled = true ∧
      (s.blk.ao.sampled = true ∧ (now.toNat < s.blk.now ∨ s.blk.now + 1000 < now.toNat) →
        b.rb GLB_STATUS 5 = true ∧ b.rb (INT_CAUSE 1) 0 = true ∧ ∀ k, k < 12 → (b.trig k).level = false) ∧
      (s.blk.ao.sampled = false ∨ (s.blk.now ≤ now.toNat ∧ now.toNat ≤ s.blk.now + 1000) →
        b.rb GLB_STATUS 5 = s.blk.rb GLB_STATUS 5 ∧ ∀ k, k < 12 → b.trig k =
          if (s.blk.trig k).level = true then { s.blk.trig k with armed := true } else s.blk.trig k) ∧
      RegsOnly [GLB_TB_NOW_LO, GLB_TB_NOW_HI, GLB_STATUS, INT_CAUSE 1] s.blk { b with
        ao := { b.ao with sampled := s.blk.ao.sampled, paceSkip := s.blk.ao.paceSkip }
        fk := { b.fk with trig := s.blk.fk.trig } }) ∧
    ∀ k, k < 12 →
      (s.blk.trigDue k = true → Ends (.triggerRise k) s fun b => (b.trig k).level = true ∧
        (b.trig k).width = (if s.blk.trigPeriod k ≤ (s.blk.reg (CAM_TRIG_WIDTH k)).toNat then s.blk.trigPeriod k - 1
          else (s.blk.reg (CAM_TRIG_WIDTH k)).toNat) ∧ (∀ j, j ≠ k → b.trig j = s.blk.trig j) ∧
        CountsOnly s.blk { b with fk := { b.fk with trig := s.blk.fk.trig } }) ∧
      (s.blk.trigOver k = true → Ends (.triggerFall k) s fun b => (b.trig k).level = false ∧
        (∀ t, (b.trig k).target = some t → s.blk.now < t ∧ 0 < s.blk.trigPeriod k ∧
          t % s.blk.trigPeriod k = (s.blk.reg (CAM_TRIG_PHASE k)).toNat % s.blk.trigPeriod k ∧
          t ≤ s.blk.now + s.blk.trigPeriod k) ∧
        (∀ j, j ≠ k → b.trig j = s.blk.trig j) ∧ CountsOnly s.blk { b with fk := { b.fk with trig := s.blk.fk.trig } }) ∧
      (∀ data : Word, (s.blk.trig k).level = false → s.blk.trigOn k = false → s.blk.trigPeriod k ≠ 0 →
        data.getLsbD 0 = true → s.blk.portCase (CAM_TRIG_CTRL k) = .go →
        Ends (.camTrigWrite (BitVec.ofNat 20 (CAM_TRIG_CTRL k)) data) s fun b => b.trigOn k = true ∧
          (∃ t, (b.trig k).target = some t ∧ s.blk.now < t ∧ t ≤ s.blk.now + s.blk.trigPeriod k) ∧
          RegsOnly [CAM_TRIG_CTRL k] s.blk { b with bus := s.blk.bus, fk := { b.fk with trig := s.blk.fk.trig } })) ∧
  (∀ (s : State), s.blk.live = true →
    (s.blk.bypassCause ≠ 0 → s.blk.pins.fclkOn = true → Ends .bypassClose s fun b => b.rb GLB_BYP 31 = true ∧
      b.rf GLB_BYP 0 16 = (if s.blk.rb GLB_BYP 31 = true then s.blk.rf GLB_BYP 0 16 else min (s.blk.rf GLB_BYP 0 16 + 1) 0xFFFF) ∧
      b.linkUp 0 = false ∧ b.linkUp 1 = false ∧
      RegsOnly [GLB_BYP, INT_CAUSE 5, FL_CFG] s.blk { b with fk := { b.fk with flume := s.blk.fk.flume } }) ∧
    (s.blk.pins.pwrok = true → s.blk.ao.straps.fe = true → s.blk.ao.straps.fw = true → s.blk.movementReset = false →
      s.blk.rb GLB_BYP 30 = false → s.blk.rb GLB_BYP 31 = true → s.blk.pins.fclkOn = true → Ends .bypassOpen s fun b => b.rb GLB_BYP 31 = false ∧
        b.rf GLB_BYP 0 16 = s.blk.rf GLB_BYP 0 16) ∧
    (∀ data : Word, s.blk.portCase GLB_BYP = .go → Ends (.glbBypWrite data) s fun b => b.rb GLB_BYP 30 = data.getLsbD 30 ∧
      b.rb GLB_BYP 31 = s.blk.rb GLB_BYP 31 ∧ RegsOnly [GLB_BYP] s.blk { b with bus := s.blk.bus }) ∧
    (∀ beats : List (Nat × Nat), s.blk.rb PACE_CTRL 31 = true → s.blk.rb PACE_CTRL 29 = false → s.blk.ao.paceSkip = false →
      Ends (.paceWindowEnd beats) s fun b => ∀ i, i < 248 → s.blk.islandOff i = false → s.blk.rb (PACE i) 30 = false →
        let rate := min ((SMap.find beats i).getD 0 / Nat.max 1 (s.blk.rf PACE_CTRL 16 8)) 0xFFF
        b.rf (PACE i) 0 12 = rate ∧ b.rf (PACE i) 16 12 = min rate (s.blk.rf (PACE i) 16 12) ∧ b.rb (PACE i) 31 = true) ∧
    (∀ data : Word, data.getLsbD 30 = true → s.blk.portCase PACE_CTRL = .go → Ends (.paceClrMin data) s fun b =>
      (∀ i, i < 248 → b.rf (PACE i) 16 12 = 0xFFF ∧ b.rf (PACE i) 0 12 = s.blk.rf (PACE i) 0 12) ∧
      b.reg PACE_CTRL = (s.blk.reg PACE_CTRL &&& 0x5F00FFFF) ||| (data &&& 0xA0FF0000)))

/-- R29, R31, R59 to R63, R329: a request that may transfer takes a free tag of its pool unless one that waits comes before it,
and waits where none is free; an OK response frees the tag, a read's bytes being what the line holds and a unit's write putting
its enabled bytes there; a first ERROR is counted and the line waits for its one retry; a response whose tag is not in use is
counted as spurious and changes nothing else. Where the spec is open, it follows log entries 7, 14 and 15. -/
def Obligations.MemoryTagsFollowRequests : Prop :=
  ∀ (s : State), s.blk.live = true →
    (∀ r : MemReq, s.blk.mayRequest r = true →
      (s.blk.freeTags r.write ≠ [] → s.blk.grants r = true →
        Ends (.memRequestTransfer r) s fun b => ∃ t x, t ∈ s.blk.freeTags r.write ∧
          SMap.find (b.tags r.write) t = some x ∧ x.req = r ∧ x.chan = s.blk.chanOf r.line ∧
          x.retry = (s.blk.retryOf r).isSome ∧
          (∀ u, u ≠ t → SMap.find (b.tags r.write) u = SMap.find (s.blk.tags r.write) u) ∧
          b.tags (!r.write) = s.blk.tags (!r.write) ∧ b.fk.waits = s.blk.fk.waits.erase r ∧
          (∀ y, s.blk.retryOf r = some y → x.serial = y.serial ∧ b.fk.retries = s.blk.fk.retries.erase y ∧
            b.fk.owed = s.blk.fk.owed) ∧
          (∀ y, s.blk.retryOf r = none → s.blk.owedFor r = some y → x.serial = y.serial ∧
            b.fk.owed = s.blk.fk.owed.erase y ∧ b.fk.retries = s.blk.fk.retries) ∧
          RegsOnly [] s.blk { b with
            free := s.blk.free
            fk := { b.fk with rdTags := s.blk.fk.rdTags, wrTags := s.blk.fk.wrTags, retries := s.blk.fk.retries
                              owed := s.blk.fk.owed, waits := s.blk.fk.waits, served := s.blk.fk.served
                              serial := s.blk.fk.serial } }) ∧
      (s.blk.freeTags r.write = [] ∨ s.blk.grants r = false →
        Ends (.memRequestTransfer r) s fun b => r ∈ b.fk.waits ∧ (∀ w, w ∈ s.blk.fk.waits → w ∈ b.fk.waits) ∧
          RegsOnly [] s.blk { b with fk := { b.fk with waits := s.blk.fk.waits } })) ∧
    (∀ (chan tag code : Nat) (data : BitVec 512),
      (SMap.find s.blk.fk.rdTags tag = none → Ends (.memReadResponse chan tag code data) s fun b =>
        b.rf GLB_MSPUR 0 16 = min (s.blk.rf GLB_MSPUR 0 16 + 1) 0xFFFF ∧ RegsOnly [GLB_MSPUR] s.blk b) ∧
      (SMap.find s.blk.fk.wrTags tag = none → Ends (.memWriteAck chan tag code) s fun b =>
        b.rf GLB_MSPUR 0 16 = min (s.blk.rf GLB_MSPUR 0 16 + 1) 0xFFFF ∧ RegsOnly [GLB_MSPUR] s.blk b) ∧
      (∀ x, SMap.find s.blk.fk.rdTags tag = some x → x.req.write = false → (∀ n, x.req.agent ≠ .own n) →
        Ends (.memReadResponse chan tag 0 data) s fun b => SMap.find b.fk.rdTags tag = none ∧
          (∀ k, k < 64 → b.xget (64 * x.req.line + k) = BitVec.ofNat 8 (bits data (8 * k) 8)) ∧
          (∀ a, a < 64 * x.req.line ∨ 64 * x.req.line + 64 ≤ a → b.xget a = s.blk.xget a) ∧
          (∀ id c, s.blk.findCmd id = some c → ((x.req.agent = .gather id ∧ c.unit = .gather) ∨
              ∃ k, x.req.agent = .skidder k id ∧ c.unit = .skidder k ∧ s.blk.bufferUsed k id + c.lines.length < 256) →
            b.findCmd id = some { c with lines := c.lines ++ [(x.req.line, some data)] }) ∧
          CountsOnly s.blk { b with ext := s.blk.ext, fk := { b.fk with rdTags := s.blk.fk.rdTags, cmds := s.blk.fk.cmds } }) ∧
      (∀ x, SMap.find s.blk.fk.wrTags tag = some x →
        (∀ id, (x.req.agent = .gather id ∨ ∃ k, x.req.agent = .skidder k id) →
          Ends (.memWriteAck chan tag 0) s fun b => SMap.find b.fk.wrTags tag = none ∧
            (∀ k, k < 64 → b.xget (64 * x.req.line + k) =
              if x.req.be.getLsbD k = true then BitVec.ofNat 8 (bits x.req.data (8 * k) 8)
              else s.blk.xget (64 * x.req.line + k)) ∧
            (∀ a, a < 64 * x.req.line ∨ 64 * x.req.line + 64 ≤ a → b.xget a = s.blk.xget a) ∧
            CountsOnly s.blk { b with ext := s.blk.ext, fk := { b.fk with wrTags := s.blk.fk.wrTags } }) ∧
        (x.retry = false → Ends (.memWriteAck chan tag 1) s fun b => SMap.find b.fk.wrTags tag = none ∧
          b.fk.retries = s.blk.fk.retries ++ [{ req := x.req, serial := x.serial }] ∧ b.ext = s.blk.ext ∧
          RegsOnly [GLB_MERR, INT_CAUSE 3] s.blk { b with fk := { b.fk with wrTags := s.blk.fk.wrTags, retries := s.blk.fk.retries } })))

/-! Test access port, dumps, counters and the tally. -/

/-- R67, R426 to R431: the TAP's instruction, the device's identity and its observer registers; a trigger starts a dump, or is counted while one
is held or in progress; a port that gives no answer is noted; a dump that is complete stands in dump SRAM behind a header
that says its trigger, start and duration, and raises DUMP. Where the spec is open, it follows log entry 71. -/
def Obligations.DumpsAreTakenAndReadThroughTheTestPort : Prop :=
  ∀ (s : State), s.blk.pins.vddAo = true →
    let tapOnly := fun (b : Block) => CountsOnly s.blk { b with ao := { b.ao with tap := s.blk.ao.tap } }
    (Ends .tapReset s fun b => b.ao.tap = { s.blk.ao.tap with ir := 0x01 } ∧ tapOnly b ∧
      b.tapDr.toNat = 0x30F1C001 + 2 * s.blk.ao.straps.mfr.toNat) ∧
    (s.blk.pins.coldN = true →
      let triggers := fun (i : Instr) (k : Nat) => Ends i s fun b =>
        (s.blk.rb DMP_STAT 31 = false → s.blk.rb DMP_STAT 30 = false →
          b.rb DMP_STAT 30 = true ∧
          ∃ d, b.ao.dumpRun = some d ∧ d.trigger = k ∧ d.time = BitVec.ofNat 64 s.blk.now ∧ d.noAns = []) ∧
        (s.blk.rb DMP_STAT 31 = true ∨ s.blk.rb DMP_STAT 30 = true →
          b.rf DMP_STAT 0 16 = min (s.blk.rf DMP_STAT 0 16 + 1) 0xFFFF ∧ b.ao.dumpRun = s.blk.ao.dumpRun) ∧
        b.ao.dump = s.blk.ao.dump ∧
        RegsOnly [DMP_STAT] s.blk { b with ao := { b.ao with dumpRun := s.blk.ao.dumpRun, tap := s.blk.ao.tap } }
      (∀ op : Byte, Ends (.tapInstruction op) s fun b => b.ao.tap = { s.blk.ao.tap with
          ir := if op = 0x01 ∨ op = 0x40 ∨ op = 0x41 then op else 0xFF } ∧ tapOnly b) ∧
      (∀ data : Word, s.blk.ao.tap.ir = 0x40 →
        (data.getLsbD 28 = true → data.getLsbD 31 = false → Ends (.obsCtrlUpdate data) s fun b =>
          b.rb DMP_STAT 31 = false ∧ b.ao.tap = { s.blk.ao.tap with addr := data.setWidth 16 } ∧
          RegsOnly [DMP_STAT] s.blk { b with ao := { b.ao with tap := s.blk.ao.tap } }) ∧
        (data.getLsbD 28 = false → data.getLsbD 31 = false → Ends (.obsCtrlUpdate data) s fun b =>
          b.ao.tap = { s.blk.ao.tap with addr := data.setWidth 16 } ∧ tapOnly b) ∧
        (data.getLsbD 28 = false → data.getLsbD 31 = true → triggers (.obsCtrlUpdate data) 4)) ∧
      (s.blk.ao.tap.ir = 0x41 → Ends .obsDataCapture s fun b =>
        b.ao.tap = { s.blk.ao.tap with
          data := BitVec.ofNat 32 (memNat s.blk.ao.dump (4 * s.blk.ao.tap.addr.toNat) 4), addr := s.blk.ao.tap.addr + 1 } ∧
        tapOnly b) ∧
      triggers (.dumpStart 2) 2 ∧ triggers (.dumpStart 4) 4 ∧
      ∀ d, s.blk.ao.dumpRun = some d →
        (∀ k, k < 123 → Ends (.obsPortTimeout k) s fun b => b.ao.dumpRun = some { d with noAns := d.noAns ++ [k] } ∧
          CountsOnly s.blk { b with ao := { b.ao with dumpRun := s.blk.ao.dumpRun } }) ∧
        ∀ ticks, ticks < 2 ^ 32 → Ends (.dumpComplete ticks) s fun b =>
          b.rb DMP_STAT 31 = true ∧ b.rb DMP_STAT 30 = false ∧ (d.trigger < 8 → b.rf DMP_STAT 27 3 = d.trigger) ∧
          b.rb (INT_CAUSE 6) 5 = true ∧ b.ao.dumpRun = none ∧
          memNat b.ao.dump 0 4 = 0x504D5544 ∧ memNat b.ao.dump 4 4 = (1 + d.trigger * 2 ^ 16) % 2 ^ 32 ∧
          memNat b.ao.dump 16 8 = d.time.toNat ∧ memNat b.ao.dump 24 4 = ticks ∧
          RegsOnly [DMP_STAT, INT_CAUSE 6] s.blk { b with free := s.blk.free, ao := { b.ao with
            dump := s.blk.ao.dump, dumpRun := s.blk.ao.dumpRun } })

/-- R110 to R112: the host's writes to the counter that SYNC_SEL selects, which act on shared counters alone: SYNC_ADD
adds, SYNC_VAL replaces the value, SYNC_CFG sets epoch and producer; SHARED_BASE changes only while no pool counter is
lent. R438, R442, R445, R446: a disabled count takes a TLY_CFG word that Table 16.1 allows and refuses any other with
CFG_ERR; FREEZE is stored and CLR_ALL returns every count and wrap bit to 0; TLY_WIN discards the window in progress and
CLR_PEAK clears every peak; at a window's end RATE is its bytes a microsecond, and PEAK the greatest rate so far.
Where the spec is open, it follows log entry 72. -/
def Obligations.HostWritesReachCountersAndTally : Prop :=
  (∀ (s : State) (data : Word), s.blk.portCase SYNC_VAL = .go → s.blk.portCase SYNC_ADD = .go →
    s.blk.portCase SYNC_CFG = .go → s.blk.portCase SYNC_POOL = .go →
    let n := s.blk.rf SYNC_SEL 0 12
    let c := s.blk.counter n
    let acked := fun (b : Block) => b.bus = { s.blk.bus with ack := true, rdata := 0, err := false }
    let becomes := fun (i : Instr) (x : Counter) => Ends i s fun b => acked b ∧
      b.counter n = (if s.blk.rf SYNC_POOL 0 13 ≤ n then x else c) ∧ (∀ m, m ≠ n → b.counter m = s.blk.counter m) ∧
      (∀ th t, s.blk.findThread th = some t → t.hold = .none → b.findThread th = some t) ∧
      CountsOnly s.blk { b with bus := s.blk.bus, fk := { b.fk with counters := s.blk.fk.counters, threads := s.blk.fk.threads } }
    becomes (.syncAddWrite data) { c with value := c.value + data } ∧
    becomes (.syncValWrite data) { c with value := data } ∧
    becomes (.syncCfgWrite data) { c with epoch := BitVec.ofNat 8 (data.toNat % 256), owner := data.toNat / 2 ^ 16 % 64 } ∧
    Ends (.syncPoolWrite data) s fun b => acked b ∧
      b.rf SYNC_POOL 0 13 = (if s.blk.fk.counters.any (fun e => e.1 < s.blk.rf SYNC_POOL 0 13 && e.2.lent.isSome) = true
        then s.blk.rf SYNC_POOL 0 13 else min (data.toNat % 2 ^ 13) 0x1000) ∧
      RegsOnly [SYNC_POOL] s.blk { b with bus := s.blk.bus }) ∧
  (∀ (s : State) (data : Word),
    let acked := fun (b : Block) => b.bus = { s.blk.bus with ack := true, rdata := 0, err := false }
    (∀ i, i < 256 → s.blk.portCase (TLY_CFG i) = .go → Ends (.tlyCfgWrite i data) s fun b => acked b ∧
      (s.blk.rb (TLY_CFG i) 31 = false → tallyCfgOk i data = true → b.reg (TLY_CFG i) =
        (s.blk.reg (TLY_CFG i) &&& 0x1000FF00) ||| (data &&& 0xEFFF00FF)) ∧
      (s.blk.rb (TLY_CFG i) 31 = false → tallyCfgOk i data = false → b.reg (TLY_CFG i) = s.blk.reg (TLY_CFG i) ∧
        b.rb TLY_STAT 31 = true) ∧
      (s.blk.rb (TLY_CFG i) 31 = true → b.rb (TLY_CFG i) 31 = data.getLsbD 31 ∧
        ∀ k, k < 31 → b.rb (TLY_CFG i) k = s.blk.rb (TLY_CFG i) k) ∧
      RegsOnly [TLY_CFG i, TLY_STAT] s.blk { b with bus := s.blk.bus }) ∧
    (s.blk.portCase TLY_CTRL = .go →
      (data.getLsbD 30 = false → Ends (.tlyFreezeWrite data) s fun b => acked b ∧ b.rb TLY_CTRL 31 = data.getLsbD 31 ∧
        b.fk.tally = s.blk.fk.tally ∧ RegsOnly [TLY_CTRL] s.blk { b with bus := s.blk.bus }) ∧
      (data.getLsbD 30 = true → Ends (.tlyClrAll data) s fun b => acked b ∧ b.rb TLY_CTRL 31 = data.getLsbD 31 ∧
        (∀ i, b.tallyCount i = 0) ∧ (∀ j, j < 8 → b.reg (TLY_WRAP j) = 0) ∧
        RegsOnly [TLY_CTRL] s.blk { b with bus := s.blk.bus })) ∧
    (s.blk.portCase TLY_WIN = .go → ∀ i, i = Instr.tlyWinWrite data ∨ (i = Instr.tlyClrPeak data ∧ data.getLsbD 29 = true) →
      Ends i s fun b => acked b ∧ b.reg TLY_WIN = (s.blk.reg TLY_WIN &&& 0x3FFF0000) ||| (data &&& 0xC000FFFF) ∧
        (∀ p, SMap.get zeroNat b.fk.window p = 0) ∧
        (∀ p, p < 15 → b.reg (TLY_BW_PEAK p) = if data.getLsbD 29 = true then 0 else s.blk.reg (TLY_BW_PEAK p)) ∧
        RegsOnly (TLY_WIN :: (List.range 15).map TLY_BW_PEAK) s.blk { b with bus := s.blk.bus }) ∧
    (s.blk.live = true → s.blk.rb TLY_WIN 31 = true → s.blk.rb TLY_WIN 30 = false → Ends .tlyWindowEnd s fun b =>
      (∀ p, p < 15 → let rate := SMap.get zeroNat s.blk.fk.window p / Nat.max 1 (s.blk.rf TLY_WIN 0 16)
        b.reg (TLY_BW_RATE p) = BitVec.ofNat 32 rate ∧
        b.reg (TLY_BW_PEAK p) = BitVec.ofNat 32 (max rate (s.blk.reg (TLY_BW_PEAK p)).toNat)) ∧
      (∀ p, SMap.get zeroNat b.fk.window p = 0) ∧ b.rb (INT_CAUSE 8) 1 = true ∧
      RegsOnly ((List.range 15).flatMap fun p => [TLY_BW_RATE p, TLY_BW_PEAK p]) s.blk b))

/-! Translation (4.3 to 4.5). -/

/-- R117, R122, R128, R129, R401: an invalidation removes the cached translations of its scope at its start and again at
its end, when every access in flight at its start is over; a context is enabled from off, and torn down from active: its
jobs end and its deck channels are disabled, and once nothing of it is left it is off and QM_TDN says so. The fault
ring's head moves only over written records, and its configuration only while nothing is suspended or waits. Where the
spec is open, it follows log entries 20, 21 and 63. -/
def Obligations.ContextsAndInvalidationsFollowTheirWrites : Prop :=
  ∀ (s : State) (data : Word),
    let acked := fun (b : Block) => b.bus = { s.blk.bus with ack := true, rdata := 0, err := false }
    (s.blk.portCase XL_INV = .go → data.getLsbD 8 = true → s.blk.fk.xl.inval = none → Ends (.xlInvGo data) s fun b => acked b ∧
      (∃ v, b.fk.xl.inval = some v ∧ v.scope = bits data 0 2 ∧ v.ctx = bits data 16 6 ∧
        v.va = s.blk.pair XL_INV_VA_LO ∧ v.pages = (s.blk.reg XL_INV_PAGES).toNat ∧
        v.waits = s.blk.invWaits { v with waits := [] } ∧
        b.fk.xl.cache = s.blk.fk.xl.cache.filter fun l => !v.takes l) ∧
      RegsOnly [XL_INV] s.blk { b with bus := s.blk.bus, fk := { b.fk with xl := s.blk.fk.xl } }) ∧
    (∀ v, s.blk.live = true → s.blk.fk.xl.inval = some v → (∀ n ∈ v.waits, s.blk.serialInUse n = false) →
      Ends .xlInvDone s fun b => b.fk.xl = { s.blk.fk.xl with
        inval := none, cache := s.blk.fk.xl.cache.filter fun l => !v.takes l } ∧
        CountsOnly s.blk { b with fk := { b.fk with xl := s.blk.fk.xl } }) ∧
    (∀ c, c < 64 → s.blk.portCase (XL_CTX_CFG c) = .go →
      (s.blk.rf (XL_CTX_CFG c) 28 2 = 0 → data.getLsbD 31 = true → Ends (.xlCtxEnable c data) s fun b => acked b ∧
        b.rb (XL_CTX_CFG c) 31 = true ∧ b.rf (XL_CTX_CFG c) 28 2 = 1 ∧ RegsOnly [XL_CTX_CFG c] s.blk { b with bus := s.blk.bus }) ∧
      (s.blk.rf (XL_CTX_CFG c) 28 2 = 1 → data.getLsbD 31 = false → Ends (.contextTeardown c data) s fun b => acked b ∧
        b.rb (XL_CTX_CFG c) 31 = false ∧ b.rf (XL_CTX_CFG c) 28 2 = 2 ∧
        (∀ j job, s.blk.findJob j = some job → job.ctx = c → ∃ x, b.findJob j = some x ∧ x.ended.isSome = true) ∧
        (∀ k d, s.blk.deck? k = some d → bits d.ctrl 16 6 = c → b.deckEn k = false)) ∧
      (∀ us, s.blk.live = true → s.blk.rf (XL_CTX_CFG c) 28 2 = 2 → s.blk.ctxQuiet c = true → s.blk.jobsIn c = [] →
        s.blk.tornDown c = true → Ends (.teardownComplete c us) s fun b => b.rf (XL_CTX_CFG c) 28 2 = 0 ∧
          b.reg QM_TDN = BitVec.ofNat 32 (2 ^ 31 + c * 2 ^ 16 + min us 0xFFFF) ∧ b.rb (INT_CAUSE 0) 18 = true ∧
          (∀ l ∈ b.fk.xl.cache, l.ctx ≠ c ∧ l ∈ s.blk.fk.xl.cache))) ∧
    (s.blk.portCase XL_FQ_HEAD = .go → Ends (.xlFqHeadWrite data) s fun b => acked b ∧
      (let size := s.blk.fqSize
       let h := data.toNat % 2 ^ 12
       if size ≠ 0 ∧ h < size ∧ (h + size - s.blk.fqHead) % size ≤ (s.blk.fqTail + size - s.blk.fqHead) % size then
         b.reg XL_FQ_HEAD = BitVec.ofNat 32 h ∧ b.reg XL_FQ_STAT = s.blk.reg XL_FQ_STAT
       else b.reg XL_FQ_HEAD = s.blk.reg XL_FQ_HEAD ∧
         b.rf XL_FQ_STAT 0 14 = min (s.blk.rf XL_FQ_STAT 0 14 + 1) (2 ^ 14 - 1)) ∧
      RegsOnly [XL_FQ_HEAD, XL_FQ_STAT] s.blk { b with bus := s.blk.bus }) ∧
    (s.blk.portCase XL_FQ_SIZE = .go → Ends (.xlFqConfigWrite (BitVec.ofNat 20 XL_FQ_SIZE) data) s fun b => acked b ∧
      (if s.blk.fk.xl.fids = [] ∧ s.blk.fk.xl.records = [] then
        b.reg XL_FQ_SIZE = (s.blk.reg XL_FQ_SIZE &&& 0xFFFFE000) ||| (data &&& 0x1FFF) ∧ b.reg XL_FQ_HEAD = 0 ∧
          b.reg XL_FQ_TAIL = 0 ∧ b.fk.xl = { s.blk.fk.xl with pass := true }
       else b.reg XL_FQ_SIZE = s.blk.reg XL_FQ_SIZE ∧ b.reg XL_FQ_HEAD = s.blk.reg XL_FQ_HEAD ∧ b.fk.xl = s.blk.fk.xl) ∧
      RegsOnly [XL_FQ_SIZE, XL_FQ_HEAD, XL_FQ_TAIL] s.blk { b with bus := s.blk.bus, fk := { b.fk with xl := s.blk.fk.xl } })

/-- R116, R118, R124 to R127, R189: a walk that yields a leaf caches it and the transfer goes on, with those that share the walk; a
walk that faults suspends the transfer under a free FID with a record, or holds it without one, once the writes before its cursor are acknowledged. Records are written in order while the ring has room.
RESUME and ABORT with the FID and its SEQ free the FID; the command goes on from its cursor, or ends with fill and
XLATE_FAULT or PROTECT_FAULT. Where the spec is open, it follows log entry 19. -/
def Obligations.SuspendedTransfersWaitForSoftware : Prop :=
  ∀ (s : State), s.blk.live = true →
    (∀ (id : Nat) (c : Cmd) (x : Need), s.blk.findCmd id = some c → c.need = some x → dProgEn c.ta = false →
      dProgEn c.tb = false → dProgEn c.tc = false →
      (s.blk.cmdAcked id = false → (∃ kind level, s.blk.walk x.ctx x.va x.write = .fault kind level) →
        Ends (.translationWalk 0 id x.va x.write 0) s fun b => CountsOnly s.blk b) ∧
      ((∀ v, s.blk.needOf v ≠ none → s.blk.suspReady v = true) → Ends (.translationWalk 0 id x.va x.write 0) s fun b =>
        match s.blk.walk x.ctx x.va x.write with
        | .leaf e large => (∃ l ∈ b.fk.xl.cache, l.covers x.ctx x.va = true ∧ l.entry = e ∧ l.large = large) ∧
            b.findCmd id = some { c with need := none } ∧
            (s.blk.sharers (.cmd id) x large = [] → b.fk.xl.fids = s.blk.fk.xl.fids ∧ b.ext = s.blk.ext)
        | .fault kind level =>
            b.findCmd id = some { c with need := none, phase := .suspended, active := false, lines := [] } ∧
            (kind ≠ 1 → b.fk.xl.cache = s.blk.fk.xl.cache) ∧
            (s.blk.freeFids ≠ [] → ∃ fid ∈ s.blk.freeFids, ∃ y, SMap.find b.fk.xl.fids fid = some y ∧ y.who = .cmd id ∧
              y.need = x ∧ y.kind = kind ∧ y.level = level ∧
              ∃ more, b.fk.xl.records = s.blk.fk.xl.records ++ recordBits fid y :: more) ∧
            (s.blk.freeFids = [] → ∃ y more, b.fk.xl.holding = s.blk.fk.xl.holding ++ y :: more ∧ y.who = .cmd id ∧ y.need = x) ∧
            (s.blk.sharers (.cmd id) x (s.blk.walkLeaf x.ctx x.va).isLarge = [] → b.ext = s.blk.ext))) ∧
    (∀ x rest, s.blk.fk.xl.holding = x :: rest → s.blk.freeFids ≠ [] → Ends .fidWaitGrant s fun b =>
      b.fk.xl.holding = rest ∧ (∃ fid ∈ s.blk.freeFids, ∃ y, SMap.find b.fk.xl.fids fid = some y ∧ y.who = x.who ∧
        y.need = x.need ∧ b.fk.xl.records = s.blk.fk.xl.records ++ [recordBits fid y]) ∧
      CountsOnly s.blk { b with free := s.blk.free, fk := { b.fk with xl := s.blk.fk.xl } }) ∧
    (∀ r rest, s.blk.fk.xl.records = r :: rest → s.blk.fqSize ≠ 0 →
      (s.blk.fqTail + 1) % s.blk.fqSize ≠ s.blk.fqHead → s.blk.fqTail < s.blk.fqSize →
      Ends (.faultRecordWrite 0) s fun b => b.fk.xl.records = rest ∧
        b.xnat (s.blk.pair XL_FQ_BASE_LO + 32 * s.blk.fqTail) 32 =
          (if s.blk.fk.xl.pass = true then r ||| BitVec.ofNat 256 (2 ^ 31) else r).toNat ∧
        b.fqTail = (s.blk.fqTail + 1) % s.blk.fqSize ∧ b.rb (INT_CAUSE 3) 1 = true ∧
        b.fk.xl.pass = (if s.blk.fqTail + 1 = s.blk.fqSize then !s.blk.fk.xl.pass else s.blk.fk.xl.pass) ∧
        RegsOnly [XL_FQ_TAIL, INT_CAUSE 3] s.blk { b with ext := s.blk.ext, fk := { b.fk with xl := s.blk.fk.xl } }) ∧
    (∀ (data : Word) (x : Susp) (id : Nat) (c : Cmd), s.blk.portCase XL_FQ_ACT = .go →
      SMap.find s.blk.fk.xl.fids (bits data 0 8) = some x → x.seq.toNat = bits data 8 8 → x.who = .cmd id →
      s.blk.findCmd id = some c → dProgEn c.ta = false → dProgEn c.tb = false → dProgEn c.tc = false →
      (bits data 30 2 = 1 → Ends (.xlFqResume data) s fun b => SMap.find b.fk.xl.fids (bits data 0 8) = none ∧
        b.findCmd id = some { c with phase := .accepted, active := false, order := 0, lines := [] } ∧
        RegsOnly [] s.blk { b with bus := s.blk.bus, fk := { b.fk with xl := s.blk.fk.xl, cmds := s.blk.fk.cmds } }) ∧
      (bits data 30 2 = 2 → Ends (.xlFqAbort data) s fun b => SMap.find b.fk.xl.fids (bits data 0 8) = none ∧
        b.findCmd id = some { c with phase := .accepted, active := false, order := 0, lines := [], need := none
                                     fail := some (if x.kind = 0 then stXlate else stProtect) } ∧
        RegsOnly [] s.blk { b with bus := s.blk.bus, fk := { b.fk with xl := s.blk.fk.xl, cmds := s.blk.fk.cmds } })) ∧
    (∀ data : Word, s.blk.portCase XL_FQ_ACT = .go → SMap.find s.blk.fk.xl.fids (bits data 0 8) = none →
      ∀ i, i = Instr.xlFqResume data ∨ i = Instr.xlFqAbort data → Ends i s fun b =>
        b.rf XL_FQ_STAT 0 14 = min (s.blk.rf XL_FQ_STAT 0 14 + 1) (2 ^ 14 - 1) ∧
        RegsOnly [XL_FQ_STAT] s.blk { b with bus := s.blk.bus })

/-! Jobs (4.1, 14.3, 14.5). -/

/-- R100 to R102, R383, R390: the good head entry of the queue whose turn it is starts. A RUN makes a job that holds its
SYNC counters at 0 under the job's epoch and places its first MINCONC threads, each with its own index and initial
registers, in free slots; a NOP or FENCE completes at once with DONE. The entry leaves the cache, and a credit of its
ring is taken. R101, R103, R396: the next thread of a job takes a free slot. A job that has disposed of all that it
started completes: its counters, accumulator banks and boom buffers return, and its completion waits in its ring, with
the job's result, unless NOCOMP leaves a DONE out. Where the spec is open, it follows log entry 61. -/
def Obligations.JobsStartAndCompleteWhole : Prop :=
  (∀ (s : State) (n : Nat) (e : CachedEntry), s.blk.live = true → s.blk.headReady n = some e →
    s.blk.startReason n e.bits = 0 →
    let w := e.bits
    let h := s.blk.headerAt (entProg w)
    let r := s.blk.sqRing n
    let ep := s.blk.deckEpoch (entDeck w % 64)
    let taken := fun (b : Block) => b.fk.lastSq = n ∧
      b.q n = { s.blk.q n with
        cache := (s.blk.q n).cache.drop 1, started := (s.blk.q n).started ++ [BitVec.ofNat 8 (bits w 56 8)] } ∧
      (∀ m, m ≠ n → b.q m = s.blk.q m) ∧ (∀ x, x ≠ r → b.ring x = s.blk.ring x)
    let runs := fun (b : Block) => taken b ∧ b.ring r = { s.blk.ring r with inUse := (s.blk.ring r).inUse + 1 } ∧
      (∃ job, b.findJob s.blk.fk.nextId = some job ∧ job.sq = n ∧ job.ring = r ∧ job.entry = w ∧ job.header = h ∧
        job.ctx = s.blk.sqCtx n ∧ job.epoch = ep ∧ job.nextThread = hdrMinconc h ∧ job.ended = none ∧ job.tst = [] ∧
        job.lent.length = hdrSync h ∧ job.lent.Nodup ∧ ∀ c, b.counter c = if c ∈ job.lent
          then { value := 0, epoch := ep, owner := 0, lent := some s.blk.fk.nextId } else s.blk.counter c) ∧
      (∀ j, j ≠ s.blk.fk.nextId → b.findJob j = s.blk.findJob j) ∧
      (∀ i, i < hdrMinconc h → ∃ th t, th ∈ s.blk.freeSlots ∧ b.findThread th = some t ∧ t.job = s.blk.fk.nextId ∧
        t.jidx = i ∧ t.pc.toNat = hdrEntry h % 2 ^ 20 ∧ t.ep = ep ∧ t.hold = .none ∧ t.v = [] ∧ t.p = [] ∧ t.t = [] ∧
        t.sc 1 = BitVec.ofNat 64 (entArg w % 2 ^ 48) ∧ t.sc 2 = BitVec.ofNat 64 i ∧
        t.sc 3 = BitVec.ofNat 64 (hdrThreads h) ∧
        t.sc 4 = BitVec.ofNat 64 (entTag w + n * 2 ^ 16 + s.blk.sqCtx n * 2 ^ 24) ∧
        t.sc 5 = BitVec.ofNat 64 (entDeck w) ∧ t.sc 6 = BitVec.ofNat 64 (entFrag w % 2 ^ 48) ∧
        t.sc 7 = BitVec.ofNat 64 (th / 64) ∧ t.sc 8 = ep.zeroExtend 64 ∧ ∀ k : BitVec 5, k = 0 ∨ 9 ≤ k.toNat → t.sc k = 0) ∧
      (∀ th, th ∉ s.blk.freeSlots → b.findThread th = s.blk.findThread th) ∧
      RegsOnly [] s.blk { b with free := s.blk.free, fk := { b.fk with
        queues := s.blk.fk.queues, rings := s.blk.fk.rings, jobs := s.blk.fk.jobs, threads := s.blk.fk.threads
        counters := s.blk.fk.counters, nextId := s.blk.fk.nextId, lastSq := s.blk.fk.lastSq } }
    let empties := fun (b : Block) => taken b ∧
      (if entNocomp w = true then b.ring r = s.blk.ring r ∧ (entSig w = false → b.fk.counters = s.blk.fk.counters ∧
          b.fk.threads = s.blk.fk.threads)
       else b.ring r = { s.blk.ring r with
          inUse := (s.blk.ring r).inUse + 1
          pend := (s.blk.ring r).pend ++ [{
            job := entTag w, sq := n, status := stDone, idx := e.idx, placed := 0, voided := 0, errors := 0
            errThread := 0x1FFF, lastErr := 0, irq := entIrq w
            sig := if entSig w = true then some (entSigCtr w, entSigInc w, ep) else none, credit := true }] } ∧
          b.fk.counters = s.blk.fk.counters ∧ b.fk.threads = s.blk.fk.threads) ∧
      RegsOnly [] s.blk { b with fk := { b.fk with
        queues := s.blk.fk.queues, rings := s.blk.fk.rings
        threads := s.blk.fk.threads, counters := s.blk.fk.counters, lastSq := s.blk.fk.lastSq } }
    (s.blk.startsNext n = true →
      (entOpcode w = 1 → Ends (.jobStart n) s runs ∧ Ends (.entryRun n) s runs) ∧
      (entOpcode w = 0 → Ends (.entryNop n) s empties) ∧ (entOpcode w = 2 → Ends (.entryFence n) s empties)) ∧
    (s.blk.startsNext n = false → ∀ i, i = Instr.jobStart n ∨ i = .entryRun n ∨ i = .entryNop n ∨ i = .entryFence n →
      Ends i s fun b => CountsOnly s.blk b ∧ b.fk = s.blk.fk)) ∧
  (∀ (s : State) (j : Nat) (job : Job), s.blk.live = true → s.blk.findJob j = some job →
    (job.ended = none → job.nextThread < hdrThreads job.header → s.blk.freeSlots ≠ [] →
      Ends (.threadStart j) s fun b => b.findJob j = some { job with nextThread := job.nextThread + 1 } ∧
        (∃ th t, th ∈ s.blk.freeSlots ∧ b.findThread th = some t ∧ t.job = j ∧ t.jidx = job.nextThread ∧
          t.pc.toNat = hdrEntry job.header % 2 ^ 20 ∧ t.hold = .none ∧ t.sc 2 = BitVec.ofNat 64 job.nextThread ∧
          t.sc 7 = BitVec.ofNat 64 (th / 64) ∧ ∀ x, x ≠ th → b.findThread x = s.blk.findThread x) ∧
        CountsOnly s.blk { b with free := s.blk.free, fk := { b.fk with jobs := s.blk.fk.jobs, threads := s.blk.fk.threads } }) ∧
    (s.blk.jobDone j job = true → Ends (.jobComplete j) s fun b =>
      b.findJob j = none ∧ (∀ x, x ≠ j → b.findJob x = s.blk.findJob x) ∧
      (∀ c, c ∈ job.lent → (b.counter c).lent = none) ∧ (∀ e ∈ b.fk.banks, e.2.owner ≠ some j) ∧
      (∀ key, b.boomHolder key ≠ some (.job j)) ∧
      let done := job.ended = none ∧ job.tst.find? (fun e => e.2.count ≠ 0) = none
      (entNocomp job.entry = true → done → b.ring job.ring =
        { s.blk.ring job.ring with inUse := (s.blk.ring job.ring).inUse - 1 }) ∧
      (entNocomp job.entry = false ∨ (job.ended.isSome = true ∧ job.ended ≠ some stDone) ∨
          (∃ i t, job.ended = none ∧ job.tst.find? (fun e => e.2.count ≠ 0) = some (i, t) ∧ t.first.toNat ≠ stDone) →
        ∃ c : Completion, b.ring job.ring = { s.blk.ring job.ring with pend := (s.blk.ring job.ring).pend ++ [c] } ∧
          c.job = entTag job.entry ∧ c.sq = job.sq ∧ c.idx = job.idx ∧ c.placed = job.placed ∧ c.voided = job.voided ∧
          c.errors = min ((job.tst.map fun e => e.2.count.toNat).sum) (2 ^ 32 - 1) ∧ c.irq = entIrq job.entry ∧
          (∀ st, job.ended = some st → c.status = st ∧ c.errThread = 0x1FFF) ∧
          (∀ i t, job.ended = none → job.tst.find? (fun e => e.2.count ≠ 0) = some (i, t) →
            c.status = t.first.toNat ∧ c.errThread = i ∧ c.lastErr = t.last.toNat) ∧
          (done → c.status = stDone ∧ c.errThread = 0x1FFF ∧ c.lastErr = 0))))

/-- R395, R397, R399: the next completion of a ring is written to its place in the ring, under a credit, with the pass
in its phase bit; the tail moves on, and a completion that asks for it or does not say DONE sets the ring's cause. R397
to R399, R404, R405: a CR_HEAD write returns the credits of the completions that it passes, and is counted where it
would pass the tail; a CR_SIZE write makes an idle ring empty on its first pass; a completion that has waited TIME_US
sets the ring's cause. A write of 1 to a cause bit clears it, and INT_TEST sets the bits that its branch has. Where
the spec is open, it follows log entry 62. -/
def Obligations.RingsTakeCompletionsAndWrites : Prop :=
  (∀ (s : State) (r : Nat) (c : Completion) (rest : List Completion), s.blk.live = true → r < 16 → 16 ≤ s.blk.crEntries r →
    (s.blk.ring r).pend = c :: rest → (c.credit = true ∨ 0 < s.blk.crFree r) →
    let x := s.blk.ring r
    let t := s.blk.crTail r
    Ends (.completionWrite r 0) s fun b =>
      b.xnat (s.blk.pair (CR_BASE_LO r) + 32 * t) 32 = (c.record x.pass s.blk.now).toNat ∧
      (∀ a, a < s.blk.pair (CR_BASE_LO r) + 32 * t ∨ s.blk.pair (CR_BASE_LO r) + 32 * t + 32 ≤ a → b.xget a = s.blk.xget a) ∧
      b.ring r = { x with pend := rest, since := x.since + 1, inUse := if c.credit = true then x.inUse else x.inUse + 1
                          pass := if t + 1 = s.blk.crEntries r then !x.pass else x.pass } ∧
      b.crTail r = (t + 1) % s.blk.crEntries r ∧ b.rf (CR_STAT r) 16 16 = min (s.blk.rf (CR_STAT r) 16 16 + 1) 0xFFFF ∧
      (c.irq = true ∨ 16 ≤ c.status → b.rb (INT_CAUSE 0) r = true) ∧
      (c.sig = none → b.fk.counters = s.blk.fk.counters ∧ b.fk.threads = s.blk.fk.threads) ∧
      RegsOnly [CR_TAIL r, CR_STAT r, INT_CAUSE 0] s.blk { b with ext := s.blk.ext, fk := { b.fk with
        rings := s.blk.fk.rings, counters := s.blk.fk.counters, threads := s.blk.fk.threads } }) ∧
  (∀ (s : State) (r : Nat) (data : Word),
    let acked := fun (b : Block) => b.bus = { s.blk.bus with ack := true, rdata := 0, err := false }
    (r < 16 → s.blk.portCase (CR_HEAD r) = .go → Ends (.crHeadWrite r data) s fun b => acked b ∧
      (∀ x, x ≠ r → b.ring x = s.blk.ring x) ∧
      (let n := s.blk.crEntries r
       let h := data.toNat % 2 ^ 14
       let moved := (h + n - s.blk.crHead r) % n
       if n ≠ 0 ∧ h < n ∧ moved ≤ (s.blk.crTail r + n - s.blk.crHead r) % n then
         b.crHead r = h ∧ b.ring r = { s.blk.ring r with inUse := (s.blk.ring r).inUse - moved } ∧
         b.reg (CR_STAT r) = s.blk.reg (CR_STAT r)
       else b.crHead r = s.blk.crHead r ∧ b.ring r = s.blk.ring r ∧
         b.rf (CR_STAT r) 0 16 = min (s.blk.rf (CR_STAT r) 0 16 + 1) 0xFFFF) ∧
      RegsOnly [CR_HEAD r, CR_STAT r] s.blk { b with bus := s.blk.bus, fk := { b.fk with rings := s.blk.fk.rings } }) ∧
    (r < 16 → s.blk.portCase (CR_SIZE r) = .go → Ends (.crSizeWrite r data) s fun b => acked b ∧
      (if (s.blk.ring r).inUse = 0 ∧ (∀ n ∈ List.range 64, s.blk.sqEn n = true → s.blk.sqRing n ≠ r) then
        b.rf (CR_SIZE r) 0 15 = data.toNat % 2 ^ 15 ∧ b.crHead r = 0 ∧ b.crTail r = 0 ∧
        b.ring r = { s.blk.ring r with pass := true } ∧
        (let v := data.toNat % 2 ^ 15
         b.crEntries r = (if 16 ≤ v ∧ v ∈ (List.range 15).map (2 ^ ·) then v else 0) ∧ b.crFree r = b.crEntries r - 1)
       else b.reg (CR_SIZE r) = s.blk.reg (CR_SIZE r) ∧ b.crHead r = s.blk.crHead r ∧ b.ring r = s.blk.ring r) ∧
      RegsOnly [CR_SIZE r, CR_HEAD r, CR_TAIL r] s.blk { b with bus := s.blk.bus, fk := { b.fk with rings := s.blk.fk.rings } }) ∧
    (r < 16 → s.blk.live = true → s.blk.rb (CR_IRQ r) 31 = true → s.blk.rf (CR_IRQ r) 0 16 ≠ 0 →
      0 < (s.blk.ring r).since → Ends (.crIrqTimer r) s fun b =>
        b.reg (INT_CAUSE 0) = s.blk.reg (INT_CAUSE 0) ||| BitVec.ofNat 32 (2 ^ r) ∧ RegsOnly [INT_CAUSE 0] s.blk b ∧
        b.fk = s.blk.fk) ∧
    (∀ n, n < 9 → s.blk.portCase (INT_CAUSE n) = .go → s.blk.portCase (INT_TEST n) = .go →
      (Ends (.intCauseClear n data) s fun b => acked b ∧
        b.reg (INT_CAUSE n) = s.blk.reg (INT_CAUSE n) &&& ~~~(data &&& causeMask n) ∧
        (∀ x, x < 16 → b.ring x = if n = 0 ∧ s.blk.rb (INT_CAUSE 0) x = true ∧ data.getLsbD x = true
          then { s.blk.ring x with since := 0 } else s.blk.ring x) ∧
        RegsOnly [INT_CAUSE n] s.blk { b with bus := s.blk.bus, fk := { b.fk with rings := s.blk.fk.rings } }) ∧
      (Ends (.intTest n data) s fun b => acked b ∧
        b.reg (INT_CAUSE n) = s.blk.reg (INT_CAUSE n) ||| (data &&& causeMask n) ∧
        RegsOnly [INT_CAUSE n] s.blk { b with bus := s.blk.bus })))

/-! Submission queues and completion rings (14.2 to 14.6). -/

/-- R381, R389, R391, R392, R394, R400: a doorbell of a running queue starts a scan, or one more after the scan in
progress; an invalidate drops its cached entries first. A write that sets EN of a queue that is off, with entries and a
sized ring, starts it on its head; a write of EN = 0 drains it; RESUME runs a stopped queue again; every other write to
a queue that runs or is stopped changes its PAUSE alone. R389, R390, R393, R400: a scan caches the entry at FETCH while
its OWN is 1, notes the first malformed one and the reason of Table 14.4 for it, and ends at an entry whose OWN is 0.
When the head entry is the malformed one the queue stops on it with a MALFORMED completion and a cause. A draining queue
is off once its jobs have ended and their completions are written. Where the spec is open, it follows log entries 60
and 61. -/
def Obligations.QueuesFollowTheirWritesAndEntries : Prop :=
  (∀ (s : State) (n : Nat) (data : Word), n < 64 → s.blk.portCase (SQ_CFG n) = .go →
    s.blk.portCase (SQ_DOORBELL n) = .go → s.blk.portCase (SQ_INVALIDATE n) = .go →
    let q := s.blk.q n
    let again := if q.scanning = true then { q with again := true } else { q with scanning := true }
    let does := fun (i : Instr) (regs : List Nat) (x : SubQueue) (P : Block → Prop) => Ends i s fun b =>
      b.bus = { s.blk.bus with ack := true, rdata := 0, err := false } ∧ b.q n = x ∧ (∀ m, m ≠ n → b.q m = s.blk.q m) ∧ P b ∧
      RegsOnly regs s.blk { b with bus := s.blk.bus, fk := { b.fk with queues := s.blk.fk.queues } }
    let cfg := fun (regs : List Nat) (x : SubQueue) (P : Block → Prop) =>
      ∀ i, i = Instr.sqEnable n data ∨ i = .sqDisable n data ∨ i = .sqResume n data ∨ i = .sqPauseWrite n data →
        does i (SQ_CFG n :: regs) x P
    (s.blk.sqState n = 1 → does (.sqDoorbell n data) [] again (fun _ => True) ∧
      does (.sqInvalidate n data) [SQ_FETCH n] { again with cache := [], bad := none } (fun b =>
        s.blk.sqEntries n ≠ 0 → b.sqFetch n = (s.blk.sqHead n + q.started.length) % s.blk.sqEntries n)) ∧
    (s.blk.sqState n ≠ 1 → does (.sqDoorbell n data) [] q (fun _ => True) ∧ does (.sqInvalidate n data) [] q (fun _ => True)) ∧
    (s.blk.sqState n = 0 → data.getLsbD 31 = true → s.blk.sqEntries n ≠ 0 → 16 ≤ s.blk.crEntries (bits data 12 4) →
      cfg [SQ_HEAD n, SQ_FETCH n] { again with cache := [], bad := none } fun b =>
        b.sqEn n = true ∧ b.sqState n = 1 ∧ b.sqPause n = data.getLsbD 30 ∧ b.sqPrio n = bits data 22 2 ∧
        b.sqCtx n = bits data 16 6 ∧ b.sqRing n = bits data 12 4 ∧ b.sqHead n = s.blk.sqHead n % s.blk.sqEntries n ∧
        b.sqFetch n = (s.blk.sqHead n % s.blk.sqEntries n + q.started.length) % s.blk.sqEntries n) ∧
    (s.blk.sqState n = 0 → data.getLsbD 31 = true → s.blk.sqEntries n = 0 ∨ s.blk.crEntries (bits data 12 4) < 16 →
      cfg [] q fun b => b.reg (SQ_CFG n) = s.blk.reg (SQ_CFG n)) ∧
    (s.blk.sqState n = 1 ∨ s.blk.sqState n = 3 → data.getLsbD 31 = false →
      cfg [SQ_FETCH n] { q with cache := [], bad := none, scanning := false, again := false } fun b =>
        b.sqEn n = false ∧ b.sqState n = 2 ∧ b.sqPause n = data.getLsbD 30 ∧ b.sqPrio n = s.blk.sqPrio n ∧
        b.sqCtx n = s.blk.sqCtx n ∧ b.sqRing n = s.blk.sqRing n) ∧
    (s.blk.sqState n = 3 → data.getLsbD 31 = true → data.getLsbD 27 = true → cfg [SQ_ERRIDX n] again fun b =>
      b.sqState n = 1 ∧ b.sqPause n = data.getLsbD 30 ∧ b.rb (SQ_ERRIDX n) 31 = false ∧ b.sqCtx n = s.blk.sqCtx n) ∧
    (s.blk.sqState n = 1 ∨ (s.blk.sqState n = 3 ∧ data.getLsbD 27 = false) → data.getLsbD 31 = true → cfg [] q fun b =>
      b.reg (SQ_CFG n) = (s.blk.reg (SQ_CFG n) &&& 0xBFFFFFFF) ||| (data &&& 0x40000000))) ∧
  (∀ (s : State) (n : Nat), s.blk.live = true → n < 64 →
    let q := s.blk.q n
    let others := fun (b : Block) => ∀ m, m ≠ n → b.q m = s.blk.q m
    (s.blk.scans n = true → s.blk.sqEntries n ≠ 0 →
      let i := s.blk.sqFetch n
      let e := BitVec.ofNat 512 (s.blk.xnat (s.blk.pair (SQ_BASE_LO n) + 64 * i) 64)
      (Ends (.sqEntryFetch n 0) s fun b => others b ∧
        (if e.getLsbD 63 = true then
          b.q n = { q with
            cache := q.cache ++ [{ idx := i, bits := e }]
            bad := if q.bad = none ∧ s.blk.entryReason n e ≠ 0 then some (i, s.blk.entryReason n e, entTag e) else q.bad } ∧
          b.sqFetch n = (i + 1) % s.blk.sqEntries n
         else b.q n = { q with scanning := q.again, again := false } ∧ b.sqFetch n = i) ∧
        RegsOnly [SQ_FETCH n] s.blk { b with fk := { b.fk with queues := s.blk.fk.queues } }) ∧
      (∀ code, code % 4 ≠ 0 → q.bad = none → Ends (.sqEntryFetch n code) s fun b => others b ∧
        ∃ tag, (b.q n).bad = some (i, 5, tag))) ∧
    (∀ idx reason tag, q.bad = some (idx, reason, tag) → s.blk.sqState n = 1 → s.blk.headBad n = true → idx < 4096 →
      reason < 16 → Ends (.queueStop n) s fun b => others b ∧ b.sqState n = 3 ∧ b.sqEn n = s.blk.sqEn n ∧
        b.sqFetch n = idx ∧ b.rb (SQ_ERRIDX n) 31 = true ∧ b.rf (SQ_ERRIDX n) 24 4 = reason ∧ b.rf (SQ_ERRIDX n) 0 12 = idx ∧
        b.q n = { q with cache := [], bad := none, scanning := false, again := false } ∧
        (∃ c : Completion, (b.ring (s.blk.sqRing n)).pend = (s.blk.ring (s.blk.sqRing n)).pend ++ [c] ∧ c.job = tag ∧
          c.sq = n ∧ c.status = stMalformed ∧ c.idx = idx ∧ c.sig = none ∧ c.credit = false) ∧ b.rb (INT_CAUSE 0) 16 = true ∧
        RegsOnly [SQ_CFG n, SQ_FETCH n, SQ_ERRIDX n, INT_CAUSE 0] s.blk
          { b with fk := { b.fk with queues := s.blk.fk.queues, rings := s.blk.fk.rings } }) ∧
    (s.blk.sqState n = 2 → s.blk.sqRunning n = 0 → q.started = [] →
      (∀ e ∈ s.blk.fk.rings, ∀ c ∈ e.2.pend, c.sq ≠ n) → Ends (.queueOff n) s fun b =>
        b.sqState n = 0 ∧ b.sqFetch n = s.blk.sqHead n ∧ b.rb (INT_CAUSE 0) 17 = true ∧
        RegsOnly [SQ_CFG n, SQ_FETCH n, INT_CAUSE 0] s.blk b))

/-! Camera ports, streams and the pixel front end (9.1 to 9.3). -/

/-- R254, R256 to R258, R268: the host's writes to ports and streams. A port write sets EN and, while EN was 0, the form; CLR
clears the port's counters. A stream is enabled where no limit of R257 is broken and says REFUSE otherwise; a disable discards
its frames that are not complete; a COMMIT waits for the next frame of an enabled stream and is applied, or refused, at once
for a disabled one. A table byte is written unless it is in the bank that an enabled stream uses. Where the spec is
open, it follows log entries 39 and 43. -/
def Obligations.CameraWritesTakeEffect : Prop :=
  ∀ (s : State) (data : Word),
    let acked := fun (b : Block) => b.bus = { s.blk.bus with ack := true, rdata := 0, err := false }
    (∀ p, p < 12 → s.blk.portCase (CAM_PORT_CFG p) = .go →
      let form := if s.blk.rb (CAM_PORT_CFG p) 31 = true then s.blk.rf (CAM_PORT_CFG p) 28 3 else bits data 28 3
      let sets := fun (b : Block) => acked b ∧
        (if form = 7 ∨ (data.getLsbD 31 = true ∧ s.blk.camPresent p = false) then
          b.reg (CAM_PORT_CFG p) = s.blk.reg (CAM_PORT_CFG p) ∧ b.fk = s.blk.fk
         else b.rb (CAM_PORT_CFG p) 31 = data.getLsbD 31 ∧ b.rf (CAM_PORT_CFG p) 28 3 = form ∧
          (data.getLsbD 27 = true → b.reg (CAM_PORT_HDR p) = 0 ∧ b.reg (CAM_PORT_CRC p) = 0 ∧ b.reg (CAM_PORT_DISC p) = 0) ∧
          (s.blk.rb (CAM_PORT_CFG p) 31 = true → data.getLsbD 31 = false →
            ∀ n ∈ portStreams p, ∀ f ∈ (b.str n).frames, f.complete = true) ∧
          (s.blk.rb (CAM_PORT_CFG p) 31 = false ∨ data.getLsbD 31 = true →
            RegsOnly [CAM_PORT_CFG p, CAM_PORT_HDR p, CAM_PORT_CRC p, CAM_PORT_DISC p, CAM_PORT_STAT p] s.blk
              { b with bus := s.blk.bus }))
      Ends (.camPortCfgWrite p data) s sets ∧ (data.getLsbD 27 = true → Ends (.camPortClr p data) s sets)) ∧
    (∀ n, n < 48 → s.blk.portCase (CAM_CTRL n) = .go →
      (s.blk.strEn n = false → s.blk.rb (CAM_CTRL n) 30 = false → data.getLsbD 31 = true → data.getLsbD 30 = false →
        let now := s.blk.wf (CAM_CTRL n) 0 4 (bits data 0 4)
        Ends (.camStreamEnable n data) s fun b => acked b ∧ b.camVc n = bits data 0 4 ∧
          (if now.enableRefuse n = 0 then b.strEn n = true ∧ (b.str n).started = 0 ∧
            (b.str n).entries = (s.blk.str n).entries ∧ (b.str n).active = (s.blk.str n).active ∧ b.reg (CAM_DROPS n) = 0
           else b.strEn n = false ∧ b.rf (CAM_STAT n) 6 2 = now.enableRefuse n ∧ b.fk.cam = s.blk.fk.cam) ∧
          (∀ m, m ≠ n → b.str m = s.blk.str m) ∧
          RegsOnly [CAM_CTRL n, CAM_DROPS n, CAM_STR n 0x34, CAM_STAT n] s.blk
            { b with bus := s.blk.bus, free := s.blk.free, fk := { b.fk with cam := s.blk.fk.cam } }) ∧
      (s.blk.strEn n = true → data.getLsbD 31 = false → Ends (.camStreamDisable n data) s fun b => acked b ∧
        b.strEn n = false ∧ (∀ f ∈ (b.str n).frames, f.complete = true) ∧
        ∀ f ∈ (s.blk.str n).frames, f.complete = true → ∃ g ∈ (b.str n).frames, g.id = f.id ∧ g.fno = f.fno) ∧
      (s.blk.strEn n = true → data.getLsbD 31 = true → data.getLsbD 30 = true → Ends (.camStreamCommit n data) s fun b =>
        acked b ∧ b.reg (CAM_CTRL n) = s.blk.reg (CAM_CTRL n) ||| 0x40000000 ∧ b.fk.cam = s.blk.fk.cam ∧
        RegsOnly [CAM_CTRL n] s.blk { b with bus := s.blk.bus }) ∧
      (s.blk.strEn n = false → data.getLsbD 31 = false → data.getLsbD 30 = true → Ends (.camStreamCommit n data) s fun b =>
        acked b ∧ b.rb (CAM_CTRL n) 30 = false ∧
        (if (s.blk.shadow n).valid = true then (b.str n).active = s.blk.shadow n ∧
          b.rb (CAM_CTRL n) 29 = !s.blk.rb (CAM_CTRL n) 29
         else b.fk.cam = s.blk.fk.cam ∧ b.rb (CAM_CFG_ERR0 + 4 * (n / 32)) (n % 32) = true ∧ b.rb (INT_CAUSE 1) 1 = true) ∧
        RegsOnly [CAM_CTRL n, CAM_CFG_ERR0 + 4 * (n / 32), INT_CAUSE 1] s.blk
          { b with bus := s.blk.bus, fk := { b.fk with cam := s.blk.fk.cam } })) ∧
    (∀ off : BitVec 20, isTableWindow off.toNat = true → s.blk.portCase off.toNat = .go →
      Ends (.camTableWrite off data) s fun b => acked b ∧
        CountsOnly s.blk { b with bus := s.blk.bus, fk := { b.fk with fe := { b.fk.fe with tables := s.blk.fk.fe.tables } } } ∧
        ∀ x, SMap.get tableByte b.fk.fe.tables x =
          match s.blk.tableKey off.toNat with
          | some k => if s.blk.tableLocked = false ∧ k ≤ x ∧ x < k + 4
              then BitVec.ofNat 8 (bits data (8 * (x - k)) 8) &&& tableMask (x % 1024) else SMap.get tableByte s.blk.fk.fe.tables x
          | none => SMap.get tableByte s.blk.fk.fe.tables x)

/-- R251 to R253, R258, R260: what arrives at an enabled port. A packet of a virtual channel that no enabled stream binds is
counted; a Frame Start makes the stream's next frame, and a frame without its end is corrupt; an image line of the declared
type joins its frame, or loses it where the line buffer has no room; a Frame End ends a whole frame and drops a corrupt one;
header, payload and start errors are counted and make the frame in progress corrupt. Where the spec is open, it
follows log entries 38 and 43. -/
def Obligations.CameraPacketsBuildFrames : Prop :=
  ∀ (s : State) (p vc : Nat), s.blk.live = true → s.blk.camUp p = true →
    let count := fun (i : Instr) (o lo : Nat) => Ends i s fun b =>
      b.rf o lo 16 = min (s.blk.rf o lo 16 + 1) 0xFFFF ∧ RegsOnly [o] s.blk b ∧ b.fk.cam = s.blk.fk.cam
    (s.blk.camStream p vc = none → ∀ wc dt bytes, count (.camFrameStart p vc wc) (CAM_PORT_DISC p) 16 ∧
      count (.camFrameEnd p vc wc) (CAM_PORT_DISC p) 16 ∧ count (.camImageLine p vc dt bytes) (CAM_PORT_DISC p) 16 ∧
      count (.camPacketDiscard p vc dt) (CAM_PORT_DISC p) 16) ∧
    (∀ n, s.blk.camStream p vc = some n →
      (∀ wc, (∀ f ∈ (s.blk.str n).frames, f.id < s.blk.fk.nextId) → Ends (.camFrameStart p vc wc) s fun b =>
        (b.str n).started = (s.blk.str n).started + 1 ∧ b.fk.nextId = s.blk.fk.nextId + 1 ∧
        (∃ f, b.frameOf n s.blk.fk.nextId = some f ∧ f.fno = (s.blk.str n).started % 2 ^ 32 ∧ f.wc = wc ∧
          f.stamp.toNat = s.blk.now ∧ f.lines = [] ∧ f.received = 0 ∧ f.ended = false ∧ f.corrupt = false ∧ f.taken = false ∧
          f.cfg = if s.blk.rb (CAM_CTRL n) 30 = true ∧ (s.blk.shadow n).valid = true then s.blk.shadow n
            else (s.blk.str n).active) ∧
        b.rb (CAM_CTRL n) 30 = false ∧
        ((s.blk.str n).current ≠ none → b.rf (CAM_STAT n) 16 16 = min (s.blk.rf (CAM_STAT n) 16 16 + 1) 0xFFFF)) ∧
      (∀ f, (s.blk.str n).current = some f → s.blk.frameOf n f.id = some f →
        (∀ bytes, isImageDt f.cfg.dt = true → f.received < f.cfg.inH →
          (s.blk.lineUse p + bytes.length ≤ 2 ^ 18 → Ends (.camImageLine p vc f.cfg.dt bytes) s fun b =>
            b.frameOf n f.id = some { f with
              lines := f.lines ++ [{ row := f.received, bytes := bytes, arrived := s.blk.fk.fe.arrivals, done := false
                                     onLane := none, again := none }]
              received := f.received + 1
              corrupt := f.corrupt || 8 * bytes.length != f.cfg.inW * dtBits f.cfg.dt } ∧
            (∀ m, m ≠ n → b.str m = s.blk.str m) ∧ RegsOnly [CAM_PORT_STAT p] s.blk { b with fk := { b.fk with
              cam := s.blk.fk.cam, fe := s.blk.fk.fe } }) ∧
          (2 ^ 18 < s.blk.lineUse p + bytes.length → Ends (.camImageLine p vc f.cfg.dt bytes) s fun b =>
            (∀ g ∈ (b.str n).frames, g.id ≠ f.id) ∧ (b.str n).dropping = some f.wc)) ∧
        (∀ dt bytes, isImageDt dt = true → dt ≠ f.cfg.dt → count (.camImageLine p vc dt bytes) (CAM_PORT_DISC p) 0) ∧
        (∀ dt, 0x13 ≤ dt ∨ (0x04 ≤ dt ∧ dt ≤ 0x07) → dt ≠ f.cfg.dt → count (.camPacketDiscard p vc dt) (CAM_PORT_DISC p) 0) ∧
        (∀ wc, Ends (.camFrameEnd p vc wc) s fun b =>
          (if f.corrupt = true ∨ f.received < f.cfg.inH then
            (∀ g ∈ (b.str n).frames, g.id ≠ f.id) ∧ b.rf (CAM_STAT n) 16 16 = min (s.blk.rf (CAM_STAT n) 16 16 + 1) 0xFFFF
           else b.frameOf n f.id = some { f with ended := true } ∧ RegsOnly [CAM_STAT n] s.blk { b with fk := { b.fk with
            cam := s.blk.fk.cam } }) ∧
          b.rf (CAM_STAT n) 8 8 = if f.wc = wc then s.blk.rf (CAM_STAT n) 8 8 else min (s.blk.rf (CAM_STAT n) 8 8 + 1) 0xFF) ∧
        (let marks := fun (i : Instr) (o lo : Nat) => Ends i s fun b =>
          b.frameOf n f.id = some { f with corrupt := true } ∧ b.rf o lo 16 = min (s.blk.rf o lo 16 + 1) 0xFFFF ∧
          RegsOnly [o] s.blk { b with fk := { b.fk with cam := s.blk.fk.cam } }
         marks (.camHeaderError p 1 (some vc)) (CAM_PORT_HDR p) 0 ∧ marks (.camHeaderError p 2 (some vc)) (CAM_PORT_CRC p) 16 ∧
         marks (.camSotError p true (some vc)) (CAM_PORT_CRC p) 0))) ∧
    count (.camHeaderError p 0 none) (CAM_PORT_HDR p) 16 ∧ count (.camSotError p false none) (CAM_PORT_CRC p) 0

/-- R260 to R265: a waiting frame of an enabled stream is admitted with all of its buffers where fewer than 4 frames are held
and its boom is above HOLD; frames that wait longer than STALE_US are dropped. A free lane takes the oldest ready line of the
port that the deficits choose; a line is done when its lane has processed it, and the last one completes its frame. A line
whose lane faults is given up, and a second such line in a row takes the lane out of service. Where the spec is open,
it follows log entries 39 and 44. -/
def Obligations.FrontEndAdmitsAndProcesses : Prop :=
  ∀ (s : State), s.blk.live = true →
    (∀ n f, n < 48 → (s.blk.str n).waiting = some f → s.blk.frameOf n f.id = some f →
      let place := s.blk.framePlace f.cfg.pool
      (s.blk.strEn n = true → (s.blk.str n).held < 4 → s.blk.boomAtLevel (BOOM_HOLD f.cfg.pool) f.cfg.pool = false →
        f.cfg.buffers ≤ (s.blk.boomFreeAt f.cfg.pool place).length → Ends (.camFrameAdmit n) s fun b =>
          ∃ g, b.frameOf n f.id = some g ∧ g.admitted = true ∧ g.bufs.length = f.cfg.buffers ∧ g.loop = (s.blk.str n).loop ∧
            g.lines = f.lines ∧ ∀ key ∈ g.bufs, key ∈ s.blk.boomFreeAt f.cfg.pool place ∧
              b.boomHolder key = some (.frame n f.id)) ∧
      (s.blk.strEn n = false ∨ 4 ≤ (s.blk.str n).held ∨ s.blk.boomAtLevel (BOOM_HOLD f.cfg.pool) f.cfg.pool = true ∨
        (s.blk.boomFreeAt f.cfg.pool place).length < f.cfg.buffers → Ends (.camFrameAdmit n) s fun b =>
          b.fk.cam = s.blk.fk.cam ∧ b.fk.booms.held = s.blk.fk.booms.held ∧
          CountsOnly s.blk { b with fk := { b.fk with booms := s.blk.fk.booms } })) ∧
    (∀ n, n < 48 → Ends (.camFrameStaleDrop n) s fun b =>
      ∀ f ∈ (s.blk.str n).frames, f.admitted = false → s.blk.isStale n f = true → ∀ g ∈ (b.str n).frames, g.id ≠ f.id) ∧
    (∀ lane, s.blk.laneIn lane = true →
      (s.blk.lineOn lane = none →
        (∃ p, p < 12 ∧ s.blk.readyLines p (some lane) ≠ []) → s.blk.fk.fe.nextPort < 12 →
        (∀ p, p < 12 → ∀ x ∈ s.blk.readyLines p (some lane), x.pixels ≤ 8192 ∧ 64 ≤ s.blk.quantum p) →
        Ends (.feLinePick lane) s fun b => ∃ p x, p < 12 ∧ oldestLine (s.blk.readyLines p (some lane)) = some x ∧
          b.fk.cam = (s.blk.modLine x fun l => { l with onLane := some lane }).fk.cam ∧
          CountsOnly s.blk { b with fk := { b.fk with cam := s.blk.fk.cam, fe := s.blk.fk.fe } }) ∧
      (s.blk.lineOn lane = none → Ends (.pixelLaneFault lane) s fun b =>
        SMap.get noneIn b.fk.fe.charged lane = true ∧ b.ao.lanes = s.blk.ao.lanes ∧
        CountsOnly s.blk { b with fk := { b.fk with fe := s.blk.fk.fe } }) ∧
      (∀ x, s.blk.lineOn lane = some x →
        (Ends (.pixelLaneFault lane) s fun b =>
          b.fk.cam = (s.blk.modLine x fun l => { l with onLane := none, again := some lane }).fk.cam ∧
          (if SMap.get noneIn s.blk.fk.fe.faulted lane = true then
            b.ao.lanes.getLsbD lane = false ∧ b.ao.lanesOut = s.blk.ao.lanesOut + 1 ∧ b.rb (INT_CAUSE 1) 3 = true ∧
            b.ao.lanes.getLsbD 8 = (s.blk.ao.lanes.getLsbD 8 && lane ≠ 8 || (s.blk.ao.lanesOut = 0 && lane ≠ 8))
           else SMap.get noneIn b.fk.fe.faulted lane = true ∧
            CountsOnly s.blk { b with fk := { b.fk with cam := s.blk.fk.cam, fe := s.blk.fk.fe } })) ∧
        (∀ f l, SMap.get noneIn s.blk.fk.fe.charged lane = false → s.blk.frameOf x.s x.id = some f →
          (f.lines.find? fun m => m.row == x.row) = some l → l.again = none →
          let lines := f.lines.map fun m => if m.row = x.row then { m with done := true, onLane := none } else m
          (f.ended = false ∨ (∃ m ∈ lines, m.done = false) → Ends (.feLineDone lane) s fun b =>
            b.frameOf x.s x.id = some { f with lines := lines } ∧ SMap.get noneIn b.fk.fe.faulted lane = false ∧
            CountsOnly s.blk { b with fk := { b.fk with cam := s.blk.fk.cam, fe := s.blk.fk.fe } }) ∧
          (f.ended = true → (∀ m ∈ lines, m.done = true) → Ends (.feLineDone lane) s fun b =>
            ∃ g, b.frameOf x.s x.id = some g ∧ g.complete = true ∧ g.lines = [] ∧ g.bufs = f.bufs ∧ g.fno = f.fno))))

/-! The log store (11.3 to 11.7). -/

/-- R310, R311, R321 to R325: what each command of LS_CMD does and the status that it ends with. MOUNT trains the channels and
takes the store's tables where a governing anchor is found and its working region fits; UNMOUNT and CHECKPOINT make the tables
durable; FORMAT makes an empty store of the online targets; CREATE, DELETE and TRIM change the selected stream by a record. A
command that may not run ends MALFORMED. Once its record is durable, the end of a command shows its status, clears BUSY and
sets the cause. Where the spec is open, it follows log entry 52. -/
def Obligations.LogStoreCommandsTakeEffect : Prop :=
  ∀ (s : State) (scan : NandScan), s.blk.live = true → s.blk.ls.result = none → s.blk.ls.memFail = none →
    let is := fun (op : Nat) => s.blk.ls.command = some op
    let refused := fun (i : Instr) => Ends i s fun b => b.fk.ls = { s.blk.ls with result := some stMalformed } ∧
      CountsOnly s.blk { b with fk := { b.fk with ls := s.blk.ls } }
    let trainsAt := fun (c : Nat) => s.blk.ao.straps.nand.getLsbD c = true ∧
      ∃ e, scan.passing.find? (fun e => e.1 == c) = some e ∧ (∃ d ∈ e.2.1, d < 128) ∧ ∃ d ∈ e.2.2, d < 128
    let trains := ∃ c, c < 8 ∧ trainsAt c
    let ended := fun (b : Block) (st : Nat) => b.ls.result = some st ∧ b.flash.pages = s.blk.flash.pages
    let sel := s.blk.rf LS_STR_SEL 0 5
    (is 1 → s.blk.mounted = true → refused (.lsMount scan)) ∧
    (is 1 → s.blk.mounted = false → ¬trains → Ends (.lsMount scan) s fun b => ended b stLasting ∧ b.mounted = false) ∧
    (is 1 → s.blk.mounted = false → trains →
      let anchor := (s.blk.trainChannels scan).governing scan.unread
      (anchor = none → Ends (.lsMount scan) s fun b => ended b stMalformed ∧ b.mounted = false ∧ b.rb LS_STATUS 28 = true ∧
        b.ext = s.blk.ext) ∧
      ∀ a, anchor = some a →
        let f := s.blk.flash.asAnchored a
        (s.blk.rf LS_MEM_SIZE 0 16 < f.memNeed → Ends (.lsMount scan) s fun b => ended b stMalformed ∧ b.mounted = false ∧
          b.rf LS_MEM_NEED 0 16 = f.memNeed % 2 ^ 16) ∧
        (f.memNeed ≤ s.blk.rf LS_MEM_SIZE 0 16 → s.blk.underReset intakeUnit = false → Ends (.lsMount scan) s fun b =>
          ended b stDone ∧ b.mounted = true ∧ b.rb LS_STATUS 29 = f.clean ∧ b.ls.reclaim = none ∧ b.ls.units = [] ∧
          b.ls.ops = [] ∧ (∀ c, c < 8 → (b.rb (LS_CH c) 31 = true ↔ trainsAt c)) ∧
          (∀ n, (b.lsStream n).isSome = (SMap.find f.replayed.streams n).isSome) ∧
          (∀ n x, b.lsStream n = some x → x.next = x.endOff ∧ x.left = 0) ∧ ∀ e ∈ b.ls.segs, e.2.state ≠ 2)) ∧
    (is 2 → s.blk.mounted = false → refused .lsUnmount) ∧
    (is 2 → s.blk.mounted = true → (s.blk.logQuiet fun _ => true) = true → s.blk.ls.units = [] → s.blk.ls.ops = [] →
      s.blk.pins.pfailN = true → Ends .lsUnmount s fun b => ended b stDone ∧ b.mounted = false ∧ b.ls.streams = [] ∧
        b.flash.clean = true ∧ b.flash.ckpt = s.blk.ls.tables ∧ b.flash.journal = []) ∧
    (is 3 → (s.blk.mounted = true ∨ s.blk.rf LS_FMT 0 8 < 4 ∨ 25 < s.blk.rf LS_FMT 0 8 ∨ s.blk.rf LS_FMT 8 8 < 1 ∨
      64 < s.blk.rf LS_FMT 8 8) → refused (.lsFormat scan)) ∧
    (is 3 → s.blk.mounted = false → 4 ≤ s.blk.rf LS_FMT 0 8 → s.blk.rf LS_FMT 0 8 ≤ 25 → 1 ≤ s.blk.rf LS_FMT 8 8 →
      s.blk.rf LS_FMT 8 8 ≤ 64 → s.blk.pins.pfailN = true →
      (¬trains → Ends (.lsFormat scan) s fun b => ended b stLasting ∧ b.ext = s.blk.ext) ∧
      (trains → Ends (.lsFormat scan) s fun b => ended b stDone ∧ b.flash.formatted = true ∧ b.flash.clean = false ∧
        b.flash.ckpt.streams = [] ∧ b.flash.journal = [] ∧ b.flash.stripe = s.blk.rf LS_FMT 8 8 ∧
        b.flash.sparePct = s.blk.rf LS_FMT 0 8 ∧ b.flash.targets = b.onlineMask ∧ b.flash.geom = b.reg LS_GEOM)) ∧
    (is 4 → s.blk.mounted = false → refused .lsCheckpoint) ∧
    (is 4 → s.blk.mounted = true → s.blk.pins.pfailN = true → Ends .lsCheckpoint s fun b => ended b stDone ∧
      b.flash.ckpt = s.blk.ls.tables ∧ b.flash.journal = [] ∧ b.flash.clean = false ∧ b.ls.tables = s.blk.ls.tables) ∧
    (is 5 → s.blk.mounted = false ∨ (s.blk.lsStream sel).isSome = true → refused .lsCreate) ∧
    (is 5 → s.blk.mounted = true → s.blk.lsStream sel = none → Ends .lsCreate s fun b => ended b stDone ∧
      b.lsStream sel = some { ring := (SMap.get zeroNat s.blk.ls.bound sel).testBit 16, start := 0, endOff := 0, next := 0
                              groups := [], unit := 0, left := 0 } ∧ (∀ n, n ≠ sel → b.lsStream n = s.blk.lsStream n) ∧
      b.ls.segs = s.blk.ls.segs) ∧
    (is 6 ∨ is 7 → s.blk.mounted = false ∨ s.blk.lsStream sel = none → (is 6 → refused .lsDelete) ∧ (is 7 → refused .lsTrim)) ∧
    (∀ x, s.blk.mounted = true → s.blk.lsStream sel = some x →
      (is 6 → (s.blk.logQuiet fun k => k == sel) = true → (∀ o ∈ s.blk.ls.ops, o.2.kind = 1 → o.2.stream ≠ sel) →
        Ends .lsDelete s fun b => ended b stDone ∧ b.lsStream sel = none ∧
          (∀ n, n ≠ sel → b.lsStream n = s.blk.lsStream n) ∧ ∀ g ∈ x.groups, ∀ n ∈ s.blk.groupSegs g,
            (b.lsSeg n).state = 0 ∨ (b.lsSeg n).state = 5) ∧
      (is 7 → Ends .lsTrim s fun b => ended b stDone ∧ (∀ n, n ≠ sel → b.lsStream n = s.blk.lsStream n) ∧
        ∃ y, b.lsStream sel = some y ∧ y.start = max x.start (min (s.blk.pair LS_STR_TRIM_LO) x.endOff) ∧
          y.endOff = max x.endOff y.start ∧ y.next = x.next ∧ ∀ g ∈ y.groups, g ∈ x.groups)) ∧
    (∀ t : State, ∀ op st us, t.blk.live = true → t.blk.ls.command = some op → t.blk.ls.result = some st → st < 256 →
      let waits := t.blk.undurable fun r => r.type == 4 || r.type == 5
      (waits = true → Ends (.lsCmdDone us) t fun b => b.ls.command = some op ∧ b.ls.result = some st ∧
        b.reg LS_CMD = t.blk.reg LS_CMD) ∧
      (waits = false → Ends (.lsCmdDone us) t fun b => b.rb LS_CMD 31 = false ∧ b.rf LS_CMD 16 8 = st ∧
        b.ls.command = none ∧ b.ls.result = none ∧ b.rb (INT_CAUSE 4) 0 = true ∧
        b.rf LS_STATUS 0 23 = (if op = 1 then min us (2 ^ 23 - 1) else t.blk.rf LS_STATUS 0 23) ∧
        (op ≠ 7 → b.fk.ls = { t.blk.ls with command := none, result := none }) ∧
        RegsOnly [LS_CMD, LS_STATUS, INT_CAUSE 4] t.blk { b with fk := { b.fk with ls := t.blk.ls } }))

/-- R308, R309, R311, R313, R317 to R322: the work of the mounted store. A timeout makes the open unit due; a due unit is sent
to its target; a program done puts the unit's bytes on flash in good codewords, a failure is counted; a journal page done makes
its records durable; an erase done makes its segment erased and counts it; a read counts its retries and its uncorrectable
codewords; a second bus timeout takes the target offline. Checkpoints, refresh by age and reads, and reclaim follow.
Where the spec is open, it follows log entries 50 and 51. -/
def Obligations.LogStoreWorksOnFlash : Prop :=
  ∀ (s : State), s.blk.live = true → s.blk.pins.vddFk = true →
    (∀ n, s.blk.mounted = true → s.blk.rf LS_FLUSH 0 16 ≠ 0 → Ends (.lsFlushTimeout n) s fun b =>
      b.fk.ls = { s.blk.ls with units := s.blk.ls.units.map fun u =>
        if u.stream = n ∧ u.due = false then { u with due := true } else u } ∧
      CountsOnly s.blk { b with fk := { b.fk with ls := s.blk.ls } }) ∧
    (∀ n u, s.blk.mounted = true → (s.blk.ls.units.find? fun u => u.stream == n && u.due) = some u → u.segment ≠ unplaced →
      s.blk.rb LS_STATUS 27 = true → s.blk.nandRoom (segTarget u.segment) = true → Ends (.stripeUnitProgram n) s fun b =>
        b.ls.units = s.blk.ls.units.erase u ∧
        SMap.find b.ls.ops s.blk.ls.nextOp = some { nandOpNew 1 (segTarget u.segment) with
          segment := u.segment, unit := u.unit, stream := n, first := u.first, bytes := u.bytes, keep := u.bytes.length
          tries := if u.redo = true then 1 else 0 } ∧
        b.ls.segs = s.blk.ls.segs ∧ b.ls.streams = s.blk.ls.streams ∧ b.flash = s.blk.flash) ∧
    (∀ op o, SMap.find s.blk.ls.ops op = some o → op < s.blk.ls.nextOp →
      (o.kind = 1 →
        ((s.blk.lsSeg o.segment).state = 2 → o.bytes.length ≤ gmUnit s.blk.flash.geom →
          Ends (.nandProgramDone op true) s fun b => SMap.find b.ls.ops op = none ∧
            (∀ k, k < o.bytes.length → unitByte b.flash.pages o.segment o.unit k = o.bytes.getD k 0) ∧
            (∀ k, k < 4 * gmPlanes s.blk.flash.geom → ∃ w, unitWord b.flash.pages o.segment o.unit k = some w ∧
              w.good b.flash.store = true ∧ w.says.kind = 1) ∧
            (b.lsSeg o.segment).state = (if o.unit + 1 = gmPages s.blk.flash.geom then 3 else 2) ∧
            (b.lsSeg o.segment).fill = (s.blk.lsSeg o.segment).fill ++
              (if o.keep = 0 then [] else [(o.unit, o.first, o.keep)]) ∧
            (b.lsSeg o.segment).reads = 0 ∧ ∀ n, n ≠ o.segment → b.lsSeg n = s.blk.lsSeg n) ∧
        ((s.blk.lsSeg o.segment).state ≠ 2 → Ends (.nandProgramDone op true) s fun b => SMap.find b.ls.ops op = none ∧
          b.ls.segs = s.blk.ls.segs ∧ b.flash = s.blk.flash) ∧
        (Ends (.nandProgramDone op false) s fun b => SMap.find b.ls.ops op = none ∧
          b.rf LS_ERR_WR 24 8 = min (s.blk.rf LS_ERR_WR 24 8 + 1) 0xFF ∧ b.flash.pages = s.blk.flash.pages)) ∧
      (o.kind = 4 →
        (Ends (.nandProgramDone op true) s fun b => SMap.find b.ls.ops op = none ∧
          b.flash.journal = s.blk.flash.journal ++ o.recs) ∧
        (Ends (.nandProgramDone op false) s fun b => SMap.find b.ls.ops op = none ∧
          b.rf LS_ERR_WR 24 8 = min (s.blk.rf LS_ERR_WR 24 8 + 1) 0xFF ∧ b.flash = s.blk.flash)) ∧
      (o.kind = 2 →
        (Ends (.nandEraseDone op true) s fun b => SMap.find b.ls.ops op = none ∧
          (b.lsSeg o.segment).state = (if (s.blk.lsSeg o.segment).dead = true then 5 else 1) ∧
          (b.lsSeg o.segment).erases = (s.blk.lsSeg o.segment).erases + 1 ∧ (b.lsSeg o.segment).fill = [] ∧
          (∀ u k, u < 2 ^ 14 → k < 16 → unitWord b.flash.pages o.segment u k = none) ∧
          ∀ n, n ≠ o.segment → b.lsSeg n = s.blk.lsSeg n) ∧
        ((∀ p, SMap.get zeroNat s.blk.ls.blockFails (blockKey o.segment p) = 0) → (s.blk.lsSeg o.segment).dead = false →
          o.tries = 0 → s.blk.pins.pfailN = true → Ends (.nandEraseDone op false) s fun b =>
            SMap.find b.ls.ops op = some { o with tries := 1 } ∧
            b.rf LS_ERR_WR 16 8 = min (s.blk.rf LS_ERR_WR 16 8 + 1) 0xFF ∧ b.ext = s.blk.ext)) ∧
      (o.bus = 0 → o.kind = 3 ∨ s.blk.pins.pfailN = true → Ends (.nandBusTimeout op) s fun b =>
        SMap.find b.ls.ops op = some { o with bus := 1 } ∧ CountsOnly s.blk { b with fk := { b.fk with ls := s.blk.ls } }) ∧
      (o.bus ≠ 0 → o.target < 64 → Ends (.nandBusTimeout op) s fun b => SMap.find b.ls.ops op = none ∧
        b.online o.target = false ∧ b.rf (LS_CH (o.target / 8)) 0 4 = 4 ∧ b.rb (INT_CAUSE 4) 4 = true)) ∧
    (∀ id c r p ps o got, s.blk.findCmd id = some c → c.op = .logrd → c.phase = .accepted → s.blk.cmdWaits c = false →
      readRun c = some r → r.pieces = p :: ps → (s.blk.ls.ops.find? fun o => o.2.kind == 3 && o.2.cmd == id) = some o →
      let lo := (r.part c p).1 - p.2.2.1
      let hi := (r.part c p).2 - p.2.2.1
      let u := s.blk.readUnit p.1 p.2.1 lo hi got
      Ends (.nandReadDone id got) s fun b =>
        (b.lsSeg p.1).reads = (s.blk.lsSeg p.1).reads + ((hi - 1) / 16384 - lo / 16384 + 1) ∧ b.ls.learnt = u.learnt ∧
        b.rf LS_ERR_RD 16 16 = min (s.blk.rf LS_ERR_RD 16 16 + u.retried) 0xFFFF ∧
        b.rf LS_ERR_RD 0 16 = min (s.blk.rf LS_ERR_RD 0 16 + u.uncorr) 0xFFFF ∧
        (0 < u.uncorr → b.rb (INT_CAUSE 4) 3 = true) ∧ b.flash = s.blk.flash) ∧
    (s.blk.mounted = true → 65536 ≤ s.blk.ls.journal → s.blk.pins.pfailN = true → Ends .lsAutoCheckpoint s fun b =>
      b.ls.journal = 1 ∧ b.flash.ckpt = s.blk.ls.tables ∧ b.flash.journal = [] ∧ b.flash.pages = s.blk.flash.pages) ∧
    (s.blk.mounted = true → Ends .lsAgeCheck s fun b => ∀ e ∈ s.blk.ls.segs, s.blk.needsRefresh e.2 = true →
      ∃ cause, (e.1, cause) ∈ b.ls.due) ∧
    (∀ src cause rest dst, s.blk.mounted = true → s.blk.ls.due = (src, cause) :: rest → s.blk.ls.reclaim = none →
      (s.blk.lsSeg src).state = 2 ∨ (s.blk.lsSeg src).state = 3 → s.blk.flash.hasSeg dst = true →
      (s.blk.candidates (segTarget dst) [1]).contains dst = true → s.blk.serves (segTarget dst) = true →
      s.blk.spent (segTarget dst) = false → (∀ n ∈ s.blk.groupSegs (s.blk.lsSeg src).gseq, segTarget n ≠ segTarget dst) →
      s.blk.pins.pfailN = true → s.blk.journalIdle = true → cause < 8 →
      Ends (.reclaimStart dst) s fun b => b.ls.reclaim = some { src := src, dst := dst, cause := cause, stage := 1
                                                                gseq := (s.blk.lsSeg src).gseq } ∧
        b.ls.due = rest ∧ (b.lsSeg dst).state = 2 ∧ b.ls.unsaved = [] ∧ b.rb LS_STATUS 26 = true ∧
        b.rf LS_STATUS 23 3 = cause) ∧
    (∀ r, s.blk.mounted = true → s.blk.ls.reclaim = some r → s.blk.pins.pfailN = true → r.src ≠ r.dst →
      (r.stage = 1 → s.blk.journalIdle = true → (s.blk.lsSeg r.src).state = 2 ∨ (s.blk.lsSeg r.src).state = 3 →
        (s.blk.lsSeg r.src).gseq = r.gseq → s.blk.segBusy r.src = false → Ends .reclaimCommit s fun b =>
          b.ls.reclaim = some { r with stage := 2 } ∧
          (b.lsSeg r.src).state = (if (s.blk.lsSeg r.src).dead = true then 5 else 0) ∧
          (b.lsSeg r.dst).state = (s.blk.lsSeg r.src).state ∧ (b.lsSeg r.dst).fill = (s.blk.lsSeg r.src).fill ∧
          (b.lsSeg r.dst).gseq = (s.blk.lsSeg r.src).gseq ∧ (b.lsSeg r.dst).member = (s.blk.lsSeg r.src).member ∧
          (b.lsSeg r.dst).erases = (s.blk.lsSeg r.dst).erases ∧
          (gmPlanes s.blk.flash.geom ≤ 4 → ((s.blk.lsSeg r.src).fill.map (·.1)).Nodup →
            (∀ p ∈ (s.blk.lsSeg r.src).fill, p.1 < 2 ^ 14 ∧ p.2.2 ≤ gmUnit s.blk.flash.geom) →
            ∀ p ∈ (s.blk.lsSeg r.src).fill, ∀ k, k < p.2.2 →
              unitByte b.flash.pages r.dst p.1 k = unitByte s.blk.flash.pages r.src p.1 k)) ∧
      (r.stage = 2 → s.blk.beingRead r.src = false → Ends .reclaimDone s fun b => b.ls.reclaim = none ∧
        (b.lsSeg r.src).state = (if (s.blk.lsSeg r.src).dead = true then 5 else 1) ∧
        (b.lsSeg r.src).erases = (s.blk.lsSeg r.src).erases + 1 ∧ b.rb LS_STATUS 26 = false ∧
        ∀ o ∈ b.ls.ops, o.2.kind = 2 → o.2.segment ≠ r.src))

/-! Booms, ledgers and the hang detector (12.3, 15.5, 15.8). -/

/-- R335, R337, R339: a boom is defined by a write that passes the checks, while it is idle or in maintenance mode; a
watermark by one that keeps the levels in order; another write sets the boom's IGNORED bit and its cause and changes
nothing else. A read of FREE captures IN_USE. R424, R425, R433: a write of LDG_SEL captures the ledger that it selects;
the first breach is noted in LDG_STAT and every one is a lasting fault of ledger check. A hang is armed with the picture
of the block, timed while the picture holds, and disarmed when the block is not hung; it fires once, after its time,
with a cause. Where the spec is open, it follows log entries 55, 56 and 70. -/
def Obligations.BoomsLedgersAndHangsAreKept : Prop :=
  (∀ (s : State) (data : Word),
    let acked := fun (b : Block) => b.bus = { s.blk.bus with ack := true, rdata := 0, err := false }
    let ignored := fun (k : Nat) (b : Block) => acked b ∧ b.rb BOOM_CTRL k = true ∧ b.rb (INT_CAUSE 3) 7 = true ∧
      RegsOnly [BOOM_CTRL, INT_CAUSE 3] s.blk { b with bus := s.blk.bus }
    (∀ k, k < 8 → s.blk.portCase (BOOM_CFG k) = .go →
      let free := s.blk.boomCfgOk k data = true ∧
        (s.blk.maint = true ∨ (s.blk.boomInUse k = 0 ∧ s.blk.boomWaited k = false))
      (¬free → Ends (.boomCfgWrite k data) s (ignored k)) ∧
      (free → Ends (.boomCfgWrite k data) s fun b => acked b ∧ b.boomStands k = data.getLsbD 31 ∧
        b.boomCount k = bits data 16 15 ∧ b.boomBase k = bits data 0 16 * 1024 ∧
        (s.blk.fk.booms.waiters = [] → b.boomInUse k = 0 ∧ b.rf (BOOM_STAT k) 0 18 = b.boomFree k ∧
          RegsOnly [BOOM_CFG k, BOOM_STAT k, INT_CAUSE 3] s.blk
            { b with bus := s.blk.bus, fk := { b.fk with booms := s.blk.fk.booms } }))) ∧
    (∀ k off, k < 8 → (off = BOOM_WARN k ∨ off = BOOM_HOLD k ∨ off = BOOM_CRIT k) → s.blk.portCase off = .go →
      let v := data.toNat % 2 ^ 18
      let level := fun r => if r = off then v else s.blk.rf r 0 18
      let inOrder := fun hi lo => level hi = 0 ∨ level lo = 0 ∨ level lo ≤ level hi
      let ok := inOrder (BOOM_WARN k) (BOOM_HOLD k) ∧ inOrder (BOOM_HOLD k) (BOOM_CRIT k) ∧ inOrder (BOOM_WARN k) (BOOM_CRIT k)
      (¬ok → Ends (.boomWatermarkWrite (BitVec.ofNat 20 off) data) s (ignored k)) ∧
      (ok → Ends (.boomWatermarkWrite (BitVec.ofNat 20 off) data) s fun b => acked b ∧ b.rf off 0 18 = v ∧
        RegsOnly [off] s.blk { b with bus := s.blk.bus })) ∧
    (∀ k, k < 8 → s.blk.portCase (BOOM_FREE k) = .go → Ends (.boomFreeRead k) s fun b =>
      b.bus.ack = true ∧ b.bus.err = false ∧ b.bus.rdata = BitVec.ofNat 32 (s.blk.boomFree k) ∧
      SMap.find b.bus.cap (BOOM_INUSE k) = some (BitVec.ofNat 32 (s.blk.boomInUse k)) ∧
      CountsOnly s.blk { b with bus := s.blk.bus })) ∧
  (∀ (s : State),
    (∀ data : Word, s.blk.portCase LDG_SEL = .go → Ends (.ldgSelWrite data) s fun b =>
      let x := s.blk.ledger (bits data 0 8)
      b.rf LDG_SEL 0 8 = bits data 0 8 ∧ b.reg LDG_INUSE = BitVec.ofNat 32 x.1 ∧ b.reg LDG_TOTAL = BitVec.ofNat 32 x.2 ∧
      b.reg LDG_FREE = BitVec.ofNat 32 (x.2 - x.1) ∧ b.bus = { s.blk.bus with ack := true, rdata := 0, err := false } ∧
      RegsOnly [LDG_SEL, LDG_INUSE, LDG_FREE, LDG_TOTAL] s.blk { b with bus := s.blk.bus }) ∧
    (s.blk.live = true →
      (∀ i, i ≤ 170 → Ends (.ledgerBreach i) s fun b => b.rb LDG_STAT 31 = true ∧
        (s.blk.rb LDG_STAT 31 = false → b.rf LDG_STAT 0 8 = i) ∧ (s.blk.rb LDG_STAT 31 = true → b.reg LDG_STAT = s.blk.reg LDG_STAT) ∧
        b.rf HLT_COUNT 0 16 = min (s.blk.rf HLT_COUNT 0 16 + 1) 0xFFFF ∧ b.rb (INT_CAUSE 6) 1 = true ∧
        (let o := HLT_LOG (s.blk.rf HLT_LOG_IDX 0 4)
         b.reg o = BitVec.ofNat 32 (2 + stLasting * 2 ^ 16 + 7 * 2 ^ 28) ∧ b.reg (o + 4) = 0)) ∧
      (∀ us, (s.blk.rb HANG_CFG 31 = false ∨ s.blk.hungNow = false → Ends (.hangEvaluate us) s fun b =>
          b.rf HANG_STAT 30 2 = 0 ∧ b.rf HANG_STAT 0 16 = 0 ∧ b.fk.hung = false) ∧
        (s.blk.rb HANG_CFG 31 = true → s.blk.hungNow = true →
          (s.blk.rb HANG_STAT 30 = true → s.blk.fk.hangSnap = s.blk.picture → Ends (.hangEvaluate us) s fun b =>
            b.rf HANG_STAT 0 16 = min (s.blk.rf HANG_STAT 0 16 + us) 0xFFFF ∧ b.rf HANG_STAT 16 16 = s.blk.rf HANG_STAT 16 16 ∧
            b.fk.hung = s.blk.fk.hung ∧ RegsOnly [HANG_STAT] s.blk b) ∧
          (s.blk.rb HANG_STAT 30 = false ∨ s.blk.fk.hangSnap ≠ s.blk.picture → Ends (.hangEvaluate us) s fun b =>
            b.rb HANG_STAT 30 = true ∧ b.rb HANG_STAT 31 = false ∧ b.rf HANG_STAT 0 16 = 0 ∧
            b.fk.hangSnap = s.blk.picture ∧ b.fk.hung = false))) ∧
      (s.blk.rb HANG_CFG 31 = true → s.blk.rb HANG_STAT 30 = true → 980 ≤ s.blk.rf HANG_STAT 0 16 → s.blk.hungNow = true →
        s.blk.fk.hangSnap = s.blk.picture →
        (s.blk.fk.hung = false → Ends .hangFire s fun b => b.fk.hung = true ∧ b.rb HANG_STAT 31 = true ∧
          b.rf HANG_STAT 16 14 = min (s.blk.rf HANG_STAT 16 14 + 1) (2 ^ 14 - 1) ∧ b.rb (INT_CAUSE 7) 0 = true ∧
          (s.blk.rb DMP_CTRL 30 = true → s.blk.rb DMP_STAT 31 = false → s.blk.rb DMP_STAT 30 = false →
            b.rb DMP_STAT 30 = true ∧ ∃ d, b.ao.dumpRun = some d ∧ d.trigger = 1)) ∧
        (s.blk.fk.hung = true → Ends .hangFire s fun b => b.fk = s.blk.fk ∧ CountsOnly s.blk b))))

/-! The flume port (chapter 13). -/

/-- R360, R361, R363, R373: the links. The lanes of every cycle have even parity. Training, silence, an unknown link-control code and
a second failure of a packet make a link retrain; a link that has trained is up with the credits that the partner's full
buffers and its replay copies leave, one with too many failing wires is down and its flows abort. Parity errors ask for a
replay; credits, acknowledgements, replay requests and delivery acknowledgements do as Table 13.2 says. Where the spec
is open, it follows log entry 59. -/
def Obligations.FlumeLinksFollowTheirProtocol : Prop :=
  (∀ x : BitVec 517, (lanes x).setWidth 517 = x ∧ ((List.range 518).countP (lanes x).getLsbD) % 2 = 0) ∧
  ∀ (s : State) (d : Nat), s.blk.live = true → d < 2 →
    let x := s.blk.link d
    let quiet := (s.blk.link 0).input = [] ∧ (s.blk.link 1).input = []
    let only := fun (b : Block) => b.link (1 - d) = s.blk.link (1 - d)
    let retrains := fun (i : Instr) => Ends i s fun b => only b ∧
      b.link d = { x with training := true, trained := false, strikes := 0 } ∧
      b.rf (FL_LINK d) 16 8 = min (s.blk.rf (FL_LINK d) 16 8 + 1) 0xFF ∧ b.rb (INT_CAUSE 5) 17 = true
    (s.blk.linkThere d = true → s.blk.bypassed = false → x.training = false → retrains (.linkTrain d)) ∧
    (s.blk.linkUp d = true →
      retrains (.llcSilenceTimeout d) ∧ (∀ v, llcKnown v = false → retrains (.llcLinkError d v)) ∧
      (x.strikes ≠ 0 → retrains (.linkParityError d)) ∧
      (x.strikes = 0 → Ends (.linkParityError d) s fun b => only b ∧
        b.link d = { x with strikes := 1, llc := x.llc ++ [0x41, BitVec.ofNat 8 x.seqIn] } ∧
        CountsOnly s.blk { b with fk := { b.fk with flume := s.blk.fk.flume } }) ∧
      (∀ v, 1 ≤ v → v ≤ 32 → Ends (.llcCreditReturn d v) s fun b =>
        b.fk.flume = (s.blk.setLink d fun l => { l with credits := min 32 (l.credits + v) }).drainInputs.fk.flume ∧
        (quiet → only b ∧ b.link d = { x with credits := min 32 (x.credits + v) })) ∧
      (∀ v, Ends (.llcLinkAck d v) s fun b => only b ∧
        b.link d = { x with replay := x.replay.filter fun e => 32 ≤ (v % 64 + 64 - e.1) % 64 } ∧
        CountsOnly s.blk { b with fk := { b.fk with flume := s.blk.fk.flume } }) ∧
      (∀ v, quiet → Ends (.llcReplayRequest d v) s fun b => only b ∧
        (let again := x.replay.filter fun e => (e.1 + 64 - v % 64) % 64 < 32
         b.link d = { x with replay := again, credits := 32 - v / 64 - again.length }) ∧
        CountsOnly s.blk { b with fk := { b.fk with flume := s.blk.fk.flume } }) ∧
      (∀ flow v node, 1 ≤ v → v ≤ 255 → s.blk.flOn = true →
        (flow / 16 = s.blk.flNode → ∀ f, s.blk.flow? (flow % 16) = some f → node ∈ f.receivers →
          Ends (.llcDeliveryAck d flow v node) s fun b =>
            let g := { f with acked := SMap.set zeroNat f.acked node (min f.sent (f.ackedBy node + v)) }
            b.flow? (flow % 16) = (if g.ended = true ∧ (∀ r ∈ g.receivers, g.lag r = 0) then none else some g) ∧
            (∀ n, n ≠ flow % 16 → b.flow? n = s.blk.flow? n) ∧ only b ∧ b.link d = x) ∧
        (∀ e, flow / 16 ≠ s.blk.flNode → s.blk.dirTo (flow / 16) = some e → Ends (.llcDeliveryAck d flow v node) s fun b =>
          b.link (1 - e) = s.blk.link (1 - e) ∧ b.link e = { s.blk.link e with
            llc := (s.blk.link e).llc ++ [0x80, BitVec.ofNat 8 flow, BitVec.ofNat 8 v] }))) ∧
    (∀ badOut badIn partner held, x.training = true → s.blk.bypassed = false → s.blk.pins.fclkOn = true → partner < 16 →
      (badOut ≤ 2 → badIn ≤ 2 → quiet → Ends (.linkTrained d badOut badIn (partner + 16 * held)) s fun b => only b ∧
        b.link d = { x with training := false, trained := true, failed := false, credits := 32 - held - x.replay.length } ∧
        b.rf (FL_LINK d) 26 4 = partner ∧ b.rb (INT_CAUSE 5) 17 = true ∧
        b.rf SPR_INVENTORY (if d = 0 then 22 else 18) 2 = 2 - badOut ∧ b.rf SPR_INVENTORY (if d = 0 then 20 else 16) 2 = 2 - badIn) ∧
      (2 < badOut ∨ 2 < badIn → Ends (.linkTrained d badOut badIn (partner + 16 * held)) s fun b => only b ∧
        b.link d = { x with training := false, trained := false, failed := true } ∧
        ∀ n f, n < 15 → s.blk.flow? n = some f → f.east = (d == 0) → b.flow? n = none))

/-- R358, R367, R371 to R376: the port and its flows. An enable sets the ring's configuration and trains the links, and is ignored
where a link is not fitted (R44); a disable aborts every flow and ends every arriving deck; an own flow, a notice, or an abort
that its class and its link let go leaves with the next number and a replay copy. A deck takes its flows at once; a flow that is
not acknowledged in time aborts. A port's record is written in its order once its deck has ended, and releases return its
buffers. Where the spec is open, it follows log entries 57 and 59. -/
def Obligations.FlumePortSendsAndCloses : Prop :=
  ∀ (s : State) (data : Word),
    let acked := fun (b : Block) => b.bus = { s.blk.bus with ack := true, rdata := 0, err := false }
    let quiet := (s.blk.link 0).input = [] ∧ (s.blk.link 1).input = []
    let sent := fun (b : Block) (d : Nat) (p : Packet) =>
      (b.link d).replay = (s.blk.link d).replay ++ [((s.blk.link d).seqOut, p)] ∧
      (b.link d).seqOut = ((s.blk.link d).seqOut + 1) % 64 ∧ (b.link d).credits = (s.blk.link d).credits - 1 ∧
      b.link (1 - d) = s.blk.link (1 - d)
    let drawn := fun (b : Block) (cycles : Nat) (reserved : Bool) =>
      b.fk.flume.bucket = min 256 (s.blk.fk.flume.bucket + cycles) - (if reserved = true then 16 else 0)
    (s.blk.portCase FL_CFG = .go → s.blk.fk.flume.disabling = false → quiet →
      (s.blk.flOn = false → data.getLsbD 31 = true → s.blk.linkThere 0 = true → s.blk.linkThere 1 = true →
        s.blk.fk.flume.rxHeld = [] → Ends (.flumeEnable data) s fun b => acked b ∧ b.flOn = true ∧
          b.flNode = data.toNat % 16 ∧ b.rf FL_CFG 16 4 = bits data 16 4 ∧ b.flMgr = bits data 20 4 ∧
          ∀ d, d < 2 → s.blk.bypassed = false → (b.link d).training = true ∧ (b.link d).trained = false) ∧
      (s.blk.flOn = false → data.getLsbD 31 = true → s.blk.linkThere 0 = false ∨ s.blk.linkThere 1 = false →
        Ends (.flumeEnable data) s fun b => acked b ∧ CountsOnly s.blk { b with bus := s.blk.bus }) ∧
      (s.blk.flOn = true → data.getLsbD 31 = false → Ends (.flumeDisable data) s fun b => acked b ∧
        (∀ n, n < 15 → b.flow? n = none) ∧ b.fk.flume.rxHeld = [] ∧ b.fk.flume.stopped = true ∧
        (∀ r x, SMap.find s.blk.fk.flume.rx r = some x → x.ended = none →
          SMap.find b.fk.flume.rx r = some { x with ended := some (x.endOf stLasting 0) }) ∧
        (b.flOn = false ↔ b.fk.flume.aborts = []))) ∧
    (∀ r, r < 16 → s.blk.portCase (FL_RXP r 0x18) = .go → quiet → s.blk.fk.flume.rxHeld = [] →
      Ends (.flRxpRel r data) s fun b => acked b ∧ b.rxpFull r = s.blk.rxpFull r - data.toNat % 16) ∧
    (s.blk.live = true →
      (quiet → ∀ cycles,
        (∀ n x p y, n < 15 → s.blk.flow? n = some x → s.blk.flowReady cycles n = true →
          s.blk.turnOf cycles x.dir x.reserved = true → s.blk.nextPacket n x = some (p, y) →
          Ends (.flumePacketSend n cycles) s fun b => sent b x.dir p ∧ drawn b cycles x.reserved ∧
            (x.multicast = false → y.ended = false → b.flow? n = some y) ∧ (∀ m, m ≠ n → b.flow? m = s.blk.flow? m)) ∧
        (∀ e, (s.blk.fk.flume.notices.find? fun e => s.blk.linkFree e.1) = some e → e.1 < 2 →
          Ends (.flumePacketSend 15 cycles) s fun b => sent b e.1 e.2 ∧ b.fk.flume.notices = s.blk.fk.flume.notices.erase e ∧
            b.fk.flume.flows = s.blk.fk.flume.flows) ∧
        (∀ e, s.blk.fk.flume.notices = [] → (s.blk.fk.flume.aborts.find? fun e =>
            s.blk.abortReady cycles e && s.blk.turnOf cycles e.1 e.2.1) = some e → e.1 < 2 →
          Ends (.flumePacketSend 15 cycles) s fun b => sent b e.1 e.2.2 ∧ drawn b cycles e.2.1 ∧
            b.fk.flume.aborts = s.blk.fk.flume.aborts.erase e ∧
            (s.blk.fk.flume.disabling = true → (b.flOn = false ↔ b.fk.flume.aborts = [])))) ∧
      (∀ n x, n < 15 → s.blk.flow? n = some x → 0 < x.inUse → Ends (.flowAckTimeout n) s fun b => b.flow? n = none ∧
        (∀ m, m ≠ n → b.flow? m = s.blk.flow? m) ∧ b.rf FL_ERR2 16 16 = min (s.blk.rf FL_ERR2 16 16 + 1) 0xFFFF ∧
        b.rb (INT_CAUSE 5) 19 = true) ∧
      (∀ c d, s.blk.deck? c = some d → s.blk.deckRuns c d = true → d.target = true → d.flows = [] → s.blk.flOn = true →
        ((SMap.find d.closed (s.blk.dkHead c)).isSome = true ∨ s.blk.deckEnds c d = true) →
        let k := max 1 (s.blk.rf (FL_DKD c) 0 4)
        (k ≤ s.blk.freeFlows.length → Ends (.flowAcquire c) s fun b =>
          (∃ e, b.deck? c = some e ∧ e.flows = s.blk.freeFlows.take k) ∧ ∀ n ∈ s.blk.freeFlows.take k,
            ∃ x, b.flow? n = some x ∧ x.chan = c ∧ x.deck = s.blk.dkDeck c ∧ x.epoch = s.blk.deckEpoch c ∧ x.sent = 0) ∧
        (s.blk.freeFlows.length < k → Ends (.flowAcquire c) s fun b => b.fk = s.blk.fk ∧ CountsOnly s.blk b)) ∧
      (∀ r x e most, r < 16 → SMap.find s.blk.fk.flume.rx r = some x → x.ended = some e → x.need = none →
        s.blk.isSusp (.rxPort r) = false → s.blk.fk.flume.rxHeld = [] → (s.blk.acked fun a => a == .rxPort r) = true → quiet →
        let va := (s.blk.pair (FL_RXP r 0x10) + x.deck % Nat.max 1 (s.blk.rxpNbuf r) * 64) % 2 ^ 64
        let part := fun (lo hi : Nat) => ∀ pa, va + 64 ≤ 2 ^ 48 → pa % 64 = 0 →
          (∀ j, j < 64 → s.blk.xlate (s.blk.rxpCtx r) (va + j) true = some (pa + j)) →
          s.blk.writesOf (.rxPort r) < s.blk.tagCap true (.rxPort r) → Ends (.rxRecordWrite r most) s fun b =>
            SMap.find b.fk.flume.rx r = some { x with cursor := x.cursor + (hi - lo) } ∧
            (∃ w, b.fk.owed = s.blk.fk.owed ++ [w] ∧ w.req.write = true ∧ w.req.agent = .rxPort r ∧ w.req.line = pa / 64 ∧
              ∀ j, j < 64 → w.req.be.getLsbD j = (lo ≤ j && j < hi) ∧
                (lo ≤ j → j < hi → bits w.req.data (8 * j) 8 = bits (x.record e) (8 * j) 8)) ∧ b.ext = s.blk.ext
        (x.recorded = false → Ends (.rxRecordWrite r most) s fun b => ∃ off, b.ext = s.blk.ext ∧
          (x.fail.getD e.status ≠ stDone → off = none) ∧ SMap.find b.fk.flume.rx r = some { x with
            ended := some { e with status := x.fail.getD e.status, info := off }, fail := none, recorded := true, cursor := 0 }) ∧
        (x.recorded = true → x.fail = none → x.cursor = 0 → part 4 64) ∧
        (x.recorded = true → x.fail = none → x.cursor = 60 → part 0 4) ∧
        (x.recorded = true → 64 ≤ x.cursor ∨ x.fail ≠ none → Ends (.rxRecordWrite r most) s fun b =>
          b.rxpFull r = min (s.blk.rxpFull r + 1) 15 ∧ b.rb (INT_CAUSE 5) r = true ∧ b.ext = s.blk.ext ∧
          ∀ y, SMap.find b.fk.flume.rx r = some y → y ∈ s.blk.fk.flume.opens)))

/-- R364 to R366, R368 to R371, R374, R375, R377: what a good packet does on a link whose input buffers are empty. It is
acknowledged; a passing packet goes on or waits in its input buffer; a data packet joins its deck, waits for room or, for a deck
that is discarded, is counted; OPEN announces a deck, DECK_END, ABORT and GAP end one, the manager broadcasts a REPORT and every
node records a NOTICE. A control packet whose CRC fails does none of this and is counted. Where the spec is open, it
follows log entries 58 and 59. -/
def Obligations.FlumePacketsTakeEffect : Prop :=
  ∀ (s : State) (d : Nat) (p : Packet), s.blk.live = true → d < 2 → s.blk.linkUp d = true → s.blk.flOn = true →
    (s.blk.link 0).input = [] → (s.blk.link 1).input = [] →
    let e := 1 - d
    let taken := fun (b : Block) => (b.link d).seqIn = ((s.blk.link d).seqIn + 1) % 64 ∧ (b.link d).strikes = 0 ∧
      ∃ more, (b.link d).llc = (s.blk.link d).llc ++ [0x40, BitVec.ofNat 8 (s.blk.link d).seqIn] ++ more
    let flow := p.about
    let sameDecks := fun (b : Block) => b.fk.flume.rx = s.blk.fk.flume.rx ∧
      (p.isKind 1 = false → b.fk.flume.opens = s.blk.fk.flume.opens) ∧
      b.fk.flume.flows = s.blk.fk.flume.flows ∧ b.fk.flume.rxHeld = s.blk.fk.flume.rxHeld
    (s.blk.forMe d p = false → (p.isCtl = true → p.crcOk = true) → s.blk.passesOn d p = true →
      (s.blk.linkFree e = true → s.blk.noticeWaits e = false → (∀ r, s.blk.ownReady 0 e r = false) →
        Ends (.flumeForward d p) s fun b => taken b ∧ sameDecks b ∧ (b.link d).input = [] ∧
          (b.link e).replay = (s.blk.link e).replay ++ [((s.blk.link e).seqOut, p)] ∧
          (b.link e).credits = (s.blk.link e).credits - 1) ∧
      (s.blk.linkFree e = false ∨ s.blk.noticeWaits e = true → Ends (.flumeForward d p) s fun b => taken b ∧ sameDecks b ∧
        b.link e = s.blk.link e ∧ (b.link d).input = [{ pk := p, take := false, pass := true }])) ∧
    (∀ i, p.crcOk = false → p.isCtl = true → (i = Instr.flumeForward d p ∧ s.blk.forMe d p = false) ∨
      (i = .flumeOpen d p ∧ p.kind = 1) ∨ (i = .flumeDeckEnd d p ∧ p.kind = 2) ∨ (i = .flumeAbort d p ∧ p.kind = 3) ∨
      (i = .flumeGap d p ∧ p.kind = 4) ∨ (i = .flumeReport d p ∧ p.kind = 5) ∨ (i = .flumeNotice d p ∧ p.kind = 6) →
      Ends i s fun b => taken b ∧ sameDecks b ∧ b.fk.flume.opens = s.blk.fk.flume.opens ∧
        b.fk.flume.badCtl = s.blk.fk.flume.badCtl + 1 ∧ b.link e = s.blk.link e ∧ b.reg FL_NOTICE = s.blk.reg FL_NOTICE) ∧
    (∀ x, p.isCtl = false → s.blk.rxDeck? p.flow = some x →
      (x.dropped = true → x.detached = false → Ends (.flumeDataPacket d p) s fun b => taken b ∧ sameDecks b ∧
        b.rf FL_ERR 0 16 = min (s.blk.rf FL_ERR 0 16 + 1) 0xFFFF ∧ b.rb (INT_CAUSE 5) 20 = true) ∧
      (x.detached = true → x.dropped = true → s.blk.fk.flume.stopped = false → Ends (.flumeDataPacket d p) s fun b =>
        taken b ∧ sameDecks b ∧ b.rf FL_ERR 0 16 = s.blk.rf FL_ERR 0 16) ∧
      (x.dropped = false → s.blk.rxRoom (p.flow / 16) = false → Ends (.flumeDataPacket d p) s fun b => taken b ∧ sameDecks b ∧
        ∃ h ∈ (b.link d).input, h.pk = p ∧ h.take = true) ∧
      (∀ (r : Nat) (f : Nat → Nat), x.dropped = false → x.detached = false → s.blk.fk.flume.stopped = false → s.blk.rxRoom (p.flow / 16) = true →
        r < 16 → SMap.find s.blk.fk.flume.rx r = some x → x.ended = none → x.need = none → x.fail = none → x.cursor = 0 →
        s.blk.isSusp (.rxPort r) = false → s.blk.fk.flume.rxHeld = [] →
        (∀ y, SMap.find s.blk.fk.flume.rx y = none ∨ y = r ∨ ∀ z, SMap.find s.blk.fk.flume.rx y = some z → z.flow ≠ p.flow) →
        (∀ y ∈ s.blk.fk.flume.opens, y.flow ≠ p.flow) → s.blk.rxBase x + x.taken + p.payload ≤ 2 ^ 48 →
        s.blk.writesOf (.rxPort r) + 256 ≤ s.blk.tagCap true (.rxPort r) →
        (∀ i, i < p.payload → s.blk.xlate (s.blk.rxpCtx r) (s.blk.rxBase x + x.taken + i) true = some (f i)) →
        (∀ i j, i < p.payload → j < p.payload → f i = f j → i = j) →
        Ends (.flumeDataPacket d p) s fun b => taken b ∧ b.fk.flume.rxHeld = [] ∧
          SMap.find b.fk.flume.rx r = some { x with taken := x.taken + p.payload, written := x.written + p.payload } ∧
          ∀ i, i < p.payload → ∃ w ∈ b.fk.owed, w.req.agent = .rxPort r ∧ w.req.line = f i / 64 ∧
            w.req.be.getLsbD (f i % 64) = true ∧ bits w.req.data (8 * (f i % 64)) 8 = bits p.data (8 * i) 8)) ∧
    (p.isCtl = true → p.crcOk = true →
      (p.kind = 1 → p.names s.blk.flNode = true → s.blk.rxDeck? flow = none → Ends (.flumeOpen d p) s fun b => taken b ∧
        ∃ y, b.rxDeck? flow = some y ∧ y.port = p.consumer ∧ y.src = p.src ∧ y.chan = p.chan ∧ y.deck = p.deck ∧
          y.epoch = BitVec.ofNat 8 p.epoch ∧ y.dropped = (s.blk.fk.flume.stopped || !s.blk.rxpEn p.consumer)) ∧
      (∀ x, s.blk.rxDeck? flow = some x → x.dropped = false →
        let ends := fun (i : Instr) (v : RxEnd) (P : Block → Prop) => Ends i s fun b => taken b ∧ P b ∧
          ∃ y, (y ∈ b.fk.flume.opens ∨ ∃ r, SMap.find b.fk.flume.rx r = some y) ∧ y.flow = flow ∧ y.ended = some v ∧
            y.port = x.port
        (p.kind = 2 → x.detached = false → ends (.flumeDeckEnd d p)
          { status := stDone, len := p.length, gap := 0, deck := p.deck, epoch := BitVec.ofNat 8 p.epoch, info := none }
          fun b => b.rxDeck? flow = none) ∧
        (p.kind = 3 → ends (.flumeAbort d p)
          { status := p.status, len := 0, gap := 0, deck := x.deck, epoch := x.epoch, info := none }
          fun b => b.rxDeck? flow = none) ∧
        (p.kind = 4 → p.node = s.blk.flNode → ends (.flumeGap d p)
          { status := stDetached, len := 0, gap := p.length, deck := x.deck, epoch := x.epoch, info := none }
          fun b => ∃ z, b.rxDeck? flow = some z ∧ z.detached = true ∧ z.dropped = true)) ∧
      (s.blk.fk.flume.stopped = false →
        (p.kind = 5 → p.dst = s.blk.flNode → s.blk.flNode = s.blk.flMgr → Ends (.flumeReport d p) s fun b => taken b ∧
          b.fk.flume.nseq = s.blk.fk.flume.nseq + 1 ∧ b.rb (INT_CAUSE 5) 16 = true ∧ b.reg FL_NOTICE = BitVec.ofNat 32
            ((s.blk.fk.flume.nseq + 1).toNat * 2 ^ 24 + p.nkind * 2 ^ 20 + p.node % 16 * 2 ^ 16 + p.arg)) ∧
        (p.kind = 6 → Ends (.flumeNotice d p) s fun b => taken b ∧ b.rb (INT_CAUSE 5) 16 = true ∧
          b.reg FL_NOTICE = BitVec.ofNat 32 (p.nseq * 2 ^ 24 + p.nkind * 2 ^ 20 + p.node % 16 * 2 ^ 16 + p.arg) ∧
          ∀ n x, n < 15 → s.blk.flow? n = some x → s.blk.onRoute x p.nkind p.node p.arg = true → b.flow? n = none)))

/-! Faults and resets (15.1 to 15.4). -/

/-- R409 to R411, Tables 1.9 and 15.1: a corrected SRAM word is counted; a transient fault is counted, recorded and reported; a
lasting one too, and its unit is repaired, replaced by a spare or taken out of service, with the reset of its domain. A stalled
stage is a lasting fault of its unit with CHECK 4. Where the spec is open, it follows log entries 46, 64, 65 and 66. -/
def Obligations.FaultsAreRecordedAndHandled : Prop :=
  ∀ (s : State) (f : FaultInfo),
    let o := HLT_LOG (s.blk.rf HLT_LOG_IDX 0 4)
    let recorded := fun (b : Block) (unit status check : Nat) => bits (b.reg o) 0 16 = unit ∧ bits (b.reg o) 16 8 = status ∧
      bits (b.reg o) 28 4 = check ∧ b.rf HLT_LOG_IDX 0 4 = (s.blk.rf HLT_LOG_IDX 0 4 + 1) % 16
    let lasts := fun (b : Block) (unit check : Nat) => recorded b unit stLasting check ∧
      b.rf HLT_COUNT 0 16 = min (s.blk.rf HLT_COUNT 0 16 + 1) 0xFFFF ∧ b.rb (INT_CAUSE 6) 1 = true
    let passes := fun (b : Block) (unit check : Nat) => recorded b unit stTransient check ∧
      b.rf HLT_COUNT 16 16 = min (s.blk.rf HLT_COUNT 16 16 + 1) 0xFFFF ∧ b.rb (INT_CAUSE 6) 0 = true ∧
      RegsOnly [o, o + 4, o + 8, o + 12, HLT_COUNT, HLT_LOG_IDX, INT_CAUSE 6] s.blk b ∧ b.fk.threads = s.blk.fk.threads
    let m := f.macroNo
    (s.blk.live = true → f.check = 1 → m < 280 → s.blk.macroInReset m = false → SMap.get noneIn s.blk.ao.fenced m = false →
      192 ≤ m ∨ (s.blk.macroStand m).isSome = true → (∀ x, s.blk.macroStand m = some x → s.blk.substituting x = false) →
      (f.corrected = true → Ends (.faultDetected f) s fun b =>
        b.rf HLT_CORR 0 32 = min (s.blk.rf HLT_CORR 0 32 + 1) 0xFFFFFFFF ∧ RegsOnly [HLT_CORR] s.blk b) ∧
      (f.corrected = false → f.lasting = false → Ends (.faultDetected f) s fun b => passes b (0x7000 + m) 1) ∧
      (f.corrected = false → f.lasting = true → SMap.get zeroNat s.blk.ao.repairs m < 4 → Ends (.faultDetected f) s fun b =>
        lasts b (0x7000 + m) 1 ∧ SMap.get zeroNat b.ao.repairs m = SMap.get zeroNat s.blk.ao.repairs m + 1 ∧
        b.rb (INT_CAUSE 6) 2 = true ∧ b.ao.fenced = s.blk.ao.fenced) ∧
      (f.corrected = false → f.lasting = true → 4 ≤ SMap.get zeroNat s.blk.ao.repairs m → m < 264 →
        Ends (.faultDetected f) s fun b => lasts b (0x7000 + m) 1 ∧ SMap.get noneIn b.ao.fenced m = true ∧
          b.rb (INT_CAUSE 6) 3 = true)) ∧
    (s.blk.canFail f.unit = true → f.check = 2 ∨ f.check = 3 ∨ f.check = 5 → f.lasting = false →
      (f.unit < 0x5010 ∨ 0x5018 < f.unit) → Ends (.faultDetected f) s fun b => passes b f.unit f.check) ∧
    (∀ i check, s.blk.canFail f.unit = true →
      (i = Instr.faultDetected f ∧ check = f.check ∧ f.lasting = true ∧ (f.check = 2 ∨ f.check = 3 ∨ f.check = 5)) ∨
        (i = .stageStall f ∧ check = 4 ∧ f.unit / 0x1000 ≠ 9) →
      let resets := fun (b : Block) (u domain : Nat) (subst : Bool) => ∃ r ∈ b.ao.rst, r.unit = u ∧ r.domain = domain ∧ r.subst = subst
      Ends i s fun b => lasts b f.unit check ∧
        (f.unit / 0x1000 = 0 → b.ao.controlReset = true ∨ s.blk.inReset = true) ∧
        (f.unit / 0x1000 = 2 → if s.blk.spareFree = true then resets b (0x1000 + f.unit % 0x1000 / 4) 3 true
          else b.isOut f.unit = true ∧ resets b f.unit 2 false) ∧
        (f.unit / 0x1000 = 3 → resets b f.unit 2 false ∧
          (s.blk.donorFree = true → b.donorLeft = s.blk.donorLeft - 1 ∧ b.spareMode = 2 ∧ b.isOut f.unit = false) ∧
          (s.blk.donorFree = false → b.isOut f.unit = true)) ∧
        (f.unit / 0x1000 = 4 → resets b f.unit 1 false ∧ (1 ≤ s.blk.lastingOf f.unit → b.isOut f.unit = true)) ∧
        (f.unit / 0x1000 = 6 → f.unit % 0x1000 ≤ 16 → b.isOut f.unit = true ∧ resets b f.unit 2 false))

/-- R415, R417 to R420: a write to RST_CTRL with GO starts the reset of the domain that it names, which ends the jobs of the
domain's threads, where the unit is one of that domain in service; a request that names no such unit is refused as MALFORMED,
and one while a reset is in progress does nothing. A block request resets the whole block domain. A reset that ends shows its
time and its cause, and a substitution maps the stand to the spare. Where the spec is open, it follows log entries 67
and 68. -/
def Obligations.ResetsFollowTheirRequests : Prop :=
  ∀ (s : State) (data : Word),
    let acked := fun (b : Block) => b.bus = { s.blk.bus with ack := true, rdata := 0, err := false }
    let u := data.toNat % 2 ^ 16
    (∀ d i, (i, d) ∈ [(Instr.rstThread data, 1), (.rstEngine data, 2), (.rstStand data, 3), (.rstSubsystem data, 4),
        (.rstBlock data, 5)] → s.blk.portCase RST_CTRL = .go → data.getLsbD 31 = true → bits data 28 3 = d →
      (s.blk.rstBusy = true → Ends i s fun b => acked b ∧ CountsOnly s.blk { b with bus := s.blk.bus } ∧ b.fk = s.blk.fk) ∧
      (s.blk.rstBusy = false → s.blk.rstOk d u = false → Ends i s fun b => acked b ∧ b.rf RST_STAT 16 8 = stMalformed ∧
        b.rf RST_STAT 0 16 = u ∧ RegsOnly [RST_CTRL, RST_STAT] s.blk { b with bus := s.blk.bus } ∧ b.fk = s.blk.fk) ∧
      (s.blk.rstBusy = false → s.blk.rstOk d u = true → s.blk.live = true → d < 5 → Ends i s fun b => acked b ∧
        b.rf RST_STAT 16 8 = stDone ∧ b.rf RST_STAT 28 3 = d ∧ b.rf RST_STAT 0 16 = u ∧
        b.ao.rst = [{ domain := d, unit := u, subst := false, lastingFault := false }] ∧
        ∀ th t job, s.blk.findThread th = some t → domainHas u (0x4000 + th) = true → s.blk.findJob t.job = some job →
          job.ended = none → ∃ x, b.findJob t.job = some x ∧ x.ended = some stReset) ∧
      (s.blk.rstBusy = false → d = 5 → s.blk.live = true → Ends i s fun b => acked b ∧ b.rf RST_STAT 16 8 = stDone ∧
        b.rf RST_STAT 28 3 = 5 ∧ b.rf RST_STAT 0 16 = 0xF000 ∧ b.ao.controlReset = true ∧ b.ao.phase = .entering ∧ b.live = false)) ∧
    (∀ us r, s.blk.live = true → s.blk.ao.rst.find? (s.blk.resetOver us) = some r → Ends (.domainResetEnd us) s fun b =>
      b.ao.rst = s.blk.ao.rst.erase r ∧ b.reg RST_TIME = BitVec.ofNat 32 (min us 0xFFFF) ∧ b.rb (INT_CAUSE 6) 4 = true ∧
      (r.subst = true → r.unit % 0x1000 < 8 → b.physStand (r.unit % 0x1000) = 8 ∧ b.spareMode = 1))
end

