-- ==== Sys2Proof/Laws/Maps.lean ====
section
/-! SUPPORT. Laws of sparse maps: a read after a write, and the canonical form that every operation keeps. -/

namespace Sys2Proof.SMap

variable {α : Type} {d : Nat → α}

/-! Reads after writes. -/

@[simp] theorem get_nil (k : Nat) : get d [] k = d k := rfl
@[simp] theorem find_nil (k : Nat) : find ([] : SMap α) k = none := rfl

theorem get_insert (m : SMap α) (k j : Nat) (v : α) : get d (insert m k v) j = if j = k then v else get d m j := by
  induction m with
  | nil => simp [insert, get]
  | cons e m ih =>
    obtain ⟨k', v'⟩ := e
    simp only [insert]
    split
    · simp [get]
    · split
      · subst_vars; by_cases h : j = k' <;> simp [get, h]
      · simp only [get, ih]
        by_cases h : j = k'
        · subst h; simp_all; omega
        · simp [h]

theorem get_erase (m : SMap α) (k j : Nat) : get d (erase m k) j = if j = k then d k else get d m j := by
  induction m with
  | nil => by_cases h : j = k <;> simp [erase, get, h]
  | cons e m ih =>
    obtain ⟨k', v'⟩ := e
    simp only [erase]
    split
    · subst_vars; rw [ih]; by_cases h : j = k' <;> simp [get, h]
    · simp only [get, ih]
      by_cases h : j = k'
      · subst h; simp_all; omega
      · simp [h]

/-- A read after a store. -/
theorem get_set [DecidableEq α] (m : SMap α) (k j : Nat) (v : α) :
    get d (set d m k v) j = if j = k then v else get d m j := by
  unfold set
  split
  · rw [get_erase]; by_cases h : j = k <;> simp_all
  · exact get_insert m k j v

@[simp] theorem get_set_same [DecidableEq α] (m : SMap α) (k : Nat) (v : α) : get d (set d m k v) k = v := by
  simp [get_set]

theorem get_set_other [DecidableEq α] (m : SMap α) {k j : Nat} (v : α) (h : j ≠ k) :
    get d (set d m k v) j = get d m j := by simp [get_set, h]

theorem find_insert (m : SMap α) (k j : Nat) (v : α) : find (insert m k v) j = if j = k then some v else find m j := by
  induction m with
  | nil => simp [insert, find]
  | cons e m ih =>
    obtain ⟨k', v'⟩ := e
    simp only [insert]
    split
    · simp [find]
    · split
      · subst_vars; by_cases h : j = k' <;> simp [find, h]
      · simp only [find, ih]
        by_cases h : j = k'
        · subst h; simp_all; omega
        · simp [h]

/-- A look-up after a put. -/
theorem find_put (m : SMap α) (k j : Nat) (v : α) : find (put m k v) j = if j = k then some v else find m j :=
  find_insert m k j v

@[simp] theorem find_put_same (m : SMap α) (k : Nat) (v : α) : find (put m k v) k = some v := by simp [find_put]

theorem find_put_other (m : SMap α) {k j : Nat} (v : α) (h : j ≠ k) : find (put m k v) j = find m j := by
  simp [find_put, h]

theorem find_erase (m : SMap α) (k j : Nat) : find (erase m k) j = if j = k then none else find m j := by
  induction m with
  | nil => simp [erase, find]
  | cons e m ih =>
    obtain ⟨k', v'⟩ := e
    simp only [erase]
    split
    · subst_vars; rw [ih]; by_cases h : j = k' <;> simp [find, h]
    · simp only [find, ih]
      by_cases h : j = k'
      · subst h; simp_all; omega
      · simp [h]

/-! The canonical form. -/

theorem above_iff {n : Nat} {m : SMap α} : above n m ↔ m.all (fun e => decide (n < e.1)) = true := by
  induction m with
  | nil => simp [above]
  | cons e m ih => simp [above, ih]

/-- The test says whether a map has the canonical form. -/
theorem canonical_iff [DecidableEq α] {m : SMap α} : canonical d m = true ↔ wf d m := by
  induction m with
  | nil => simp [canonical, wf]
  | cons e m ih =>
    obtain ⟨k, v⟩ := e
    simp only [canonical, wf, above_iff, Bool.and_eq_true, decide_eq_true_eq, ih, and_assoc]

theorem above_mono {a b : Nat} {m : SMap α} (h : above b m) (hab : a ≤ b) : above a m := by
  induction m with
  | nil => trivial
  | cons e m ih => exact ⟨Nat.lt_of_le_of_lt hab h.1, ih h.2⟩

theorem above_erase {a k : Nat} {m : SMap α} (h : above a m) : above a (erase m k) := by
  induction m with
  | nil => trivial
  | cons e m ih =>
    simp only [erase]
    split
    · exact ih h.2
    · exact ⟨h.1, ih h.2⟩

theorem above_insert {a k : Nat} {v : α} {m : SMap α} (h : above a m) (hk : a < k) : above a (insert m k v) := by
  induction m with
  | nil => exact ⟨hk, trivial⟩
  | cons e m ih =>
    simp only [insert]
    split
    · exact ⟨hk, h⟩
    · split
      · exact ⟨hk, h.2⟩
      · exact ⟨h.1, ih h.2⟩

theorem wf_erase {k : Nat} {m : SMap α} (h : wf d m) : wf d (erase m k) := by
  induction m with
  | nil => trivial
  | cons e m ih =>
    simp only [erase]
    split
    · exact ih h.2.2
    · exact ⟨above_erase h.1, h.2.1, ih h.2.2⟩

theorem wf_insert {k : Nat} {v : α} {m : SMap α} (h : wf d m) (hv : v ≠ d k) : wf d (insert m k v) := by
  induction m with
  | nil => exact ⟨trivial, hv, trivial⟩
  | cons e m ih =>
    obtain ⟨k', v'⟩ := e
    simp only [insert]
    split
    · exact ⟨⟨‹_›, above_mono h.1 (Nat.le_of_lt ‹_›)⟩, hv, h⟩
    · split
      · subst_vars; exact ⟨h.1, hv, h.2.2⟩
      · exact ⟨above_insert h.1 (by omega), h.2.1, ih h.2.2⟩

/-- A store keeps the canonical form. -/
theorem wf_set [DecidableEq α] {k : Nat} {v : α} {m : SMap α} (h : wf d m) : wf d (set d m k v) := by
  unfold set
  split
  · exact wf_erase h
  · exact wf_insert h ‹_›

end Sys2Proof.SMap
end

