-- ==== Sys2Proof/Laws/State.lean ====
section
/-! SUPPORT. What each update of a part of the block leaves of every field: one lemma per field per update, true by rfl. -/

namespace Sys2Proof.Machine

variable (b : Block)

/-! setAo. -/
@[simp] theorem Block.setAo_pins (f : Ao → Ao) : (b.setAo f).pins = b.pins := rfl
@[simp] theorem Block.setAo_bus (f : Ao → Ao) : (b.setAo f).bus = b.bus := rfl
@[simp] theorem Block.setAo_ao (f : Ao → Ao) : (b.setAo f).ao = f b.ao := rfl
@[simp] theorem Block.setAo_fk (f : Ao → Ao) : (b.setAo f).fk = b.fk := rfl
@[simp] theorem Block.setAo_ext (f : Ao → Ao) : (b.setAo f).ext = b.ext := rfl
@[simp] theorem Block.setAo_free (f : Ao → Ao) : (b.setAo f).free = b.free := rfl

/-! setFk. -/
@[simp] theorem Block.setFk_pins (f : Fk → Fk) : (b.setFk f).pins = b.pins := rfl
@[simp] theorem Block.setFk_bus (f : Fk → Fk) : (b.setFk f).bus = b.bus := rfl
@[simp] theorem Block.setFk_ao (f : Fk → Fk) : (b.setFk f).ao = b.ao := rfl
@[simp] theorem Block.setFk_fk (f : Fk → Fk) : (b.setFk f).fk = f b.fk := rfl
@[simp] theorem Block.setFk_ext (f : Fk → Fk) : (b.setFk f).ext = b.ext := rfl
@[simp] theorem Block.setFk_free (f : Fk → Fk) : (b.setFk f).free = b.free := rfl

/-! setPins. -/
@[simp] theorem Block.setPins_pins (f : Pins → Pins) : (b.setPins f).pins = f b.pins := rfl
@[simp] theorem Block.setPins_bus (f : Pins → Pins) : (b.setPins f).bus = b.bus := rfl
@[simp] theorem Block.setPins_ao (f : Pins → Pins) : (b.setPins f).ao = b.ao := rfl
@[simp] theorem Block.setPins_fk (f : Pins → Pins) : (b.setPins f).fk = b.fk := rfl
@[simp] theorem Block.setPins_ext (f : Pins → Pins) : (b.setPins f).ext = b.ext := rfl
@[simp] theorem Block.setPins_free (f : Pins → Pins) : (b.setPins f).free = b.free := rfl

/-! setBus. -/
@[simp] theorem Block.setBus_pins (f : Bus → Bus) : (b.setBus f).pins = b.pins := rfl
@[simp] theorem Block.setBus_bus (f : Bus → Bus) : (b.setBus f).bus = f b.bus := rfl
@[simp] theorem Block.setBus_ao (f : Bus → Bus) : (b.setBus f).ao = b.ao := rfl
@[simp] theorem Block.setBus_fk (f : Bus → Bus) : (b.setBus f).fk = b.fk := rfl
@[simp] theorem Block.setBus_ext (f : Bus → Bus) : (b.setBus f).ext = b.ext := rfl
@[simp] theorem Block.setBus_free (f : Bus → Bus) : (b.setBus f).free = b.free := rfl

/-! setExt. -/
@[simp] theorem Block.setExt_pins (f : Ext → Ext) : (b.setExt f).pins = b.pins := rfl
@[simp] theorem Block.setExt_bus (f : Ext → Ext) : (b.setExt f).bus = b.bus := rfl
@[simp] theorem Block.setExt_ao (f : Ext → Ext) : (b.setExt f).ao = b.ao := rfl
@[simp] theorem Block.setExt_fk (f : Ext → Ext) : (b.setExt f).fk = b.fk := rfl
@[simp] theorem Block.setExt_ext (f : Ext → Ext) : (b.setExt f).ext = f b.ext := rfl
@[simp] theorem Block.setExt_free (f : Ext → Ext) : (b.setExt f).free = b.free := rfl

/-! setXl. -/
@[simp] theorem Block.setXl_pins (f : Xlate → Xlate) : (b.setXl f).pins = b.pins := rfl
@[simp] theorem Block.setXl_bus (f : Xlate → Xlate) : (b.setXl f).bus = b.bus := rfl
@[simp] theorem Block.setXl_ao (f : Xlate → Xlate) : (b.setXl f).ao = b.ao := rfl
@[simp] theorem Block.setXl_fk (f : Xlate → Xlate) : (b.setXl f).fk = { b.fk with xl := f b.fk.xl } := rfl
@[simp] theorem Block.setXl_ext (f : Xlate → Xlate) : (b.setXl f).ext = b.ext := rfl
@[simp] theorem Block.setXl_free (f : Xlate → Xlate) : (b.setXl f).free = b.free := rfl

/-! setFlume. -/
@[simp] theorem Block.setFlume_pins (f : Flume → Flume) : (b.setFlume f).pins = b.pins := rfl
@[simp] theorem Block.setFlume_bus (f : Flume → Flume) : (b.setFlume f).bus = b.bus := rfl
@[simp] theorem Block.setFlume_ao (f : Flume → Flume) : (b.setFlume f).ao = b.ao := rfl
@[simp] theorem Block.setFlume_fk (f : Flume → Flume) : (b.setFlume f).fk = { b.fk with flume := f b.fk.flume } := rfl
@[simp] theorem Block.setFlume_ext (f : Flume → Flume) : (b.setFlume f).ext = b.ext := rfl
@[simp] theorem Block.setFlume_free (f : Flume → Flume) : (b.setFlume f).free = b.free := rfl

/-! setLs. -/
@[simp] theorem Block.setLs_pins (f : LogStore → LogStore) : (b.setLs f).pins = b.pins := rfl
@[simp] theorem Block.setLs_bus (f : LogStore → LogStore) : (b.setLs f).bus = b.bus := rfl
@[simp] theorem Block.setLs_ao (f : LogStore → LogStore) : (b.setLs f).ao = b.ao := rfl
@[simp] theorem Block.setLs_fk (f : LogStore → LogStore) : (b.setLs f).fk = { b.fk with ls := f b.fk.ls } := rfl
@[simp] theorem Block.setLs_ext (f : LogStore → LogStore) : (b.setLs f).ext = b.ext := rfl
@[simp] theorem Block.setLs_free (f : LogStore → LogStore) : (b.setLs f).free = b.free := rfl

/-! used. -/
@[simp] theorem Block.used_pins : b.used.pins = b.pins := rfl
@[simp] theorem Block.used_bus : b.used.bus = b.bus := rfl
@[simp] theorem Block.used_ao : b.used.ao = b.ao := rfl
@[simp] theorem Block.used_fk : b.used.fk = b.fk := rfl
@[simp] theorem Block.used_ext : b.used.ext = b.ext := rfl
@[simp] theorem Block.used_free : b.used.free = b.free + 1 := rfl

/-! Stores to the byte memories and the memory side. -/
@[simp] theorem Block.swrite_pins (n x : Nat) (xs : List Byte) : (b.swrite n x xs).pins = b.pins := rfl
@[simp] theorem Block.swrite_bus (n x : Nat) (xs : List Byte) : (b.swrite n x xs).bus = b.bus := rfl
@[simp] theorem Block.swrite_ao (n x : Nat) (xs : List Byte) : (b.swrite n x xs).ao = b.ao := rfl
@[simp] theorem Block.swrite_fk (n x : Nat) (xs : List Byte) : (b.swrite n x xs).fk = { b.fk with scr := memWrite b.fk.scr (n * standBytes + x) xs } := rfl
@[simp] theorem Block.swrite_ext (n x : Nat) (xs : List Byte) : (b.swrite n x xs).ext = b.ext := rfl
@[simp] theorem Block.swrite_free (n x : Nat) (xs : List Byte) : (b.swrite n x xs).free = b.free := rfl
@[simp] theorem Block.lwrite_pins (x : Nat) (xs : List Byte) : (b.lwrite x xs).pins = b.pins := rfl
@[simp] theorem Block.lwrite_bus (x : Nat) (xs : List Byte) : (b.lwrite x xs).bus = b.bus := rfl
@[simp] theorem Block.lwrite_ao (x : Nat) (xs : List Byte) : (b.lwrite x xs).ao = b.ao := rfl
@[simp] theorem Block.lwrite_fk (x : Nat) (xs : List Byte) : (b.lwrite x xs).fk = { b.fk with land := memWrite b.fk.land x xs } := rfl
@[simp] theorem Block.lwrite_ext (x : Nat) (xs : List Byte) : (b.lwrite x xs).ext = b.ext := rfl
@[simp] theorem Block.lwrite_free (x : Nat) (xs : List Byte) : (b.lwrite x xs).free = b.free := rfl
@[simp] theorem Block.xwrite_pins (a : Nat) (xs : List Byte) : (b.xwrite a xs).pins = b.pins := rfl
@[simp] theorem Block.xwrite_bus (a : Nat) (xs : List Byte) : (b.xwrite a xs).bus = b.bus := rfl
@[simp] theorem Block.xwrite_ao (a : Nat) (xs : List Byte) : (b.xwrite a xs).ao = b.ao := rfl
@[simp] theorem Block.xwrite_fk (a : Nat) (xs : List Byte) : (b.xwrite a xs).fk = b.fk := rfl
@[simp] theorem Block.xwrite_ext (a : Nat) (xs : List Byte) : (b.xwrite a xs).ext = { b.ext with mem := memWrite b.ext.mem a xs } := rfl
@[simp] theorem Block.xwrite_free (a : Nat) (xs : List Byte) : (b.xwrite a xs).free = b.free := rfl

end Sys2Proof.Machine
end

