-- ==== Sys2Proof/Laws/Ops.lean ====
section
/-! SUPPORT. What the shared operations can do, said once: registers and their fields, byte memories, the guard of a command, the fold over a list, and the form of every meaning. -/

namespace Sys2Proof.Machine

variable (b : Block)

/-! The form of a meaning: it answers a next state, keeps the queue, and leaves the block as its function does. -/

theorem upd_eq (s : State) (f : Block → Block) :
    s.upd f = .next { pending := s.pending, blk := settle (f s.blk) } := rfl

@[simp] theorem upd_next (s t : State) (f : Block → Block) :
    s.upd f = .next t ↔ t = { pending := s.pending, blk := settle (f s.blk) } := by
  rw [upd_eq]; constructor
  · intro h; injection h with h; exact h.symm
  · rintro rfl; rfl

/-! The interrupt output settles at the end of every command. -/

@[simp] theorem settle_ao : (settle b).ao = b.ao := by unfold settle; split <;> (try split) <;> (try split) <;> rfl
@[simp] theorem settle_fk : (settle b).fk = b.fk := by unfold settle; split <;> (try split) <;> (try split) <;> rfl
@[simp] theorem settle_ext : (settle b).ext = b.ext := by unfold settle; split <;> (try split) <;> (try split) <;> rfl
@[simp] theorem settle_bus : (settle b).bus = b.bus := by unfold settle; split <;> (try split) <;> (try split) <;> rfl
@[simp] theorem settle_free : (settle b).free = b.free := by unfold settle; split <;> (try split) <;> (try split) <;> rfl
@[simp] theorem settle_vddAo : (settle b).pins.vddAo = b.pins.vddAo := by
  unfold settle; split <;> (try split) <;> (try split) <;> rfl
@[simp] theorem settle_vddFk : (settle b).pins.vddFk = b.pins.vddFk := by
  unfold settle; split <;> (try split) <;> (try split) <;> rfl
@[simp] theorem settle_coldN : (settle b).pins.coldN = b.pins.coldN := by
  unfold settle; split <;> (try split) <;> (try split) <;> rfl
@[simp] theorem settle_warmN : (settle b).pins.warmN = b.pins.warmN := by
  unfold settle; split <;> (try split) <;> (try split) <;> rfl
@[simp] theorem settle_pwrok : (settle b).pins.pwrok = b.pins.pwrok := by
  unfold settle; split <;> (try split) <;> (try split) <;> rfl
@[simp] theorem settle_pfailN : (settle b).pins.pfailN = b.pins.pfailN := by
  unfold settle; split <;> (try split) <;> (try split) <;> rfl
@[simp] theorem settle_hclkOn : (settle b).pins.hclkOn = b.pins.hclkOn := by
  unfold settle; split <;> (try split) <;> (try split) <;> rfl
@[simp] theorem settle_fclkOn : (settle b).pins.fclkOn = b.pins.fclkOn := by
  unfold settle; split <;> (try split) <;> (try split) <;> rfl

/-! Guards. -/

@[simp] theorem guard_true (f : Block → Block) : b.guard true f = f b := rfl
@[simp] theorem guard_false (f : Block → Block) : b.guard false f = b := rfl

theorem guard_of (c : Bool) (f : Block → Block) (h : c = true) : b.guard c f = f b := by simp [h]
theorem whenLive_of (f : Block → Block) (h : b.live = true) : b.whenLive f = f b := by simp [Block.whenLive, h]
theorem whenLive_not (f : Block → Block) (h : b.live = false) : b.whenLive f = b := by simp [Block.whenLive, h]

/-- What a guarded change keeps, if the change keeps it. -/
theorem guard_keeps {P : Block → Prop} (c : Bool) (f : Block → Block) (h : P b) (hf : P (f b)) : P (b.guard c f) := by
  cases c <;> assumption

/-- What a fold keeps, if each of its changes keeps it. -/
theorem each_keeps {α : Type} {P : Block → Prop} (xs : List α) (f : Block → α → Block) (b : Block) (h : P b)
    (hf : ∀ b x, P b → P (f b x)) : P (b.each xs f) := by
  induction xs generalizing b with
  | nil => exact h
  | cons x xs ih => exact ih (f b x) (hf b x h)

/-! Registers. -/

@[simp] theorem setReg_pins (o : Nat) (w : Word) : (b.setReg o w).pins = b.pins := by
  unfold Block.setReg; split <;> rfl
@[simp] theorem setReg_bus (o : Nat) (w : Word) : (b.setReg o w).bus = b.bus := by
  unfold Block.setReg; split <;> rfl
@[simp] theorem setReg_ext (o : Nat) (w : Word) : (b.setReg o w).ext = b.ext := by
  unfold Block.setReg; split <;> rfl
@[simp] theorem setReg_free (o : Nat) (w : Word) : (b.setReg o w).free = b.free := by
  unfold Block.setReg; split <;> rfl

/-- Storing a register changes no other part of the control island. -/
theorem setReg_ao (o : Nat) (w : Word) : (b.setReg o w).ao = { b.ao with regs := (b.setReg o w).ao.regs } := by
  unfold Block.setReg; split <;> rfl

/-- Storing a register changes no other part of the VDD_FK units. -/
theorem setReg_fk (o : Nat) (w : Word) : (b.setReg o w).fk = { b.fk with regs := (b.setReg o w).fk.regs } := by
  unfold Block.setReg; split <;> rfl

/-- A register reads as it was stored. -/
@[simp] theorem reg_setReg_same (o : Nat) (w : Word) : (b.setReg o w).reg o = w := by
  unfold Block.setReg Block.reg; split <;> simp_all

/-- Storing a register leaves every other one. -/
theorem reg_setReg_other {o p : Nat} (w : Word) (h : p ≠ o) : (b.setReg o w).reg p = b.reg p := by
  unfold Block.setReg Block.reg
  split <;> split <;> simp_all [SMap.get_set_other _ w h]

/-- Blocks that store the same registers read the same. -/
theorem reg_congr {b c : Block} (ha : c.ao.regs = b.ao.regs) (hf : c.fk.regs = b.fk.regs) (o : Nat) : c.reg o = b.reg o := by
  simp [Block.reg, ha, hf]

@[simp] theorem reg_settle (o : Nat) : (settle b).reg o = b.reg o := reg_congr (by simp) (by simp) o
@[simp] theorem reg_setPins (f : Pins → Pins) (o : Nat) : (b.setPins f).reg o = b.reg o := rfl
@[simp] theorem reg_setBus (f : Bus → Bus) (o : Nat) : (b.setBus f).reg o = b.reg o := rfl
@[simp] theorem reg_setExt (f : Ext → Ext) (o : Nat) : (b.setExt f).reg o = b.reg o := rfl
@[simp] theorem reg_setXl (f : Xlate → Xlate) (o : Nat) : (b.setXl f).reg o = b.reg o := rfl
@[simp] theorem reg_setFlume (f : Flume → Flume) (o : Nat) : (b.setFlume f).reg o = b.reg o := rfl
@[simp] theorem reg_setLs (f : LogStore → LogStore) (o : Nat) : (b.setLs f).reg o = b.reg o := rfl
@[simp] theorem reg_used (o : Nat) : b.used.reg o = b.reg o := rfl
@[simp] theorem reg_xwrite (a : Nat) (xs : List Byte) (o : Nat) : (b.xwrite a xs).reg o = b.reg o := rfl

/-! Fields of a word. -/

/-- The bits of a word with a field replaced. -/
theorem setBits_getLsbD {n : Nat} (x : BitVec n) (lo len v i : Nat) (hi : i < n) :
    (setBits x lo len v).getLsbD i = if lo ≤ i ∧ i < lo + len then v.testBit (i - lo) else x.getLsbD i := by
  have h1 : ((2 ^ len - 1) <<< lo).testBit i = decide (lo ≤ i ∧ i < lo + len) := by
    rw [Nat.testBit_shiftLeft, Nat.testBit_two_pow_sub_one]
    by_cases h : lo ≤ i <;> simp [h]
    omega
  simp only [setBits, BitVec.getLsbD_or, BitVec.getLsbD_and, BitVec.getLsbD_not, BitVec.getLsbD_ofNat, hi, decide_true,
    Bool.true_and, h1]
  by_cases h : lo ≤ i ∧ i < lo + len
  · simp [h, Nat.testBit_shiftLeft]
  · simp [h]

/-- A field reads as it was set. -/
theorem bits_setBits {n : Nat} (x : BitVec n) (lo len v : Nat) (h : lo + len ≤ n) :
    bits (setBits x lo len v) lo len = v % 2 ^ len := by
  apply Nat.eq_of_testBit_eq
  intro i
  simp only [bits, Nat.testBit_mod_two_pow, Nat.testBit_shiftRight]
  by_cases hi : i < len
  · have := setBits_getLsbD x lo len v (lo + i) (by omega)
    rw [show (setBits x lo len v).toNat.testBit (lo + i) = (setBits x lo len v).getLsbD (lo + i) from rfl, this]
    simp [hi]
  · simp [hi]

/-- A field apart from the one set reads as before. -/
theorem bits_setBits_other {n : Nat} (x : BitVec n) (lo len v lo' len' : Nat) (h : lo' + len' ≤ n)
    (hd : lo' + len' ≤ lo ∨ lo + len ≤ lo') : bits (setBits x lo len v) lo' len' = bits x lo' len' := by
  apply Nat.eq_of_testBit_eq
  intro i
  simp only [bits, Nat.testBit_mod_two_pow, Nat.testBit_shiftRight]
  by_cases hi : i < len'
  · have := setBits_getLsbD x lo len v (lo' + i) (by omega)
    rw [show (setBits x lo len v).toNat.testBit (lo' + i) = (setBits x lo len v).getLsbD (lo' + i) from rfl, this]
    have hn : ¬ (lo ≤ lo' + i ∧ lo' + i < lo + len) := by omega
    simp [hi, hn, BitVec.getLsbD]
  · simp [hi]

/-- A field of a register reads as it was set. -/
theorem rf_wf_same (o lo len v : Nat) (h : lo + len ≤ 32) : (b.wf o lo len v).rf o lo len = v % 2 ^ len := by
  simp [Block.wf, Block.rf, bits_setBits _ _ _ _ h]

/-- Setting a field of a register leaves the other registers. -/
theorem reg_wf_other {o p : Nat} (lo len v : Nat) (h : p ≠ o) : (b.wf o lo len v).reg p = b.reg p :=
  reg_setReg_other b _ h

/-! Byte memories. -/

/-- A byte after bytes have been written. -/
theorem memGet_memWrite (xs : List Byte) (m : SMap Byte) (a j : Nat) :
    memGet (memWrite m a xs) j = if a ≤ j ∧ j < a + xs.length then xs.getD (j - a) 0 else memGet m j := by
  induction xs generalizing m a with
  | nil => rw [if_neg (by simp)]; rfl
  | cons v vs ih =>
    simp only [memWrite, ih, List.length_cons]
    by_cases h1 : a + 1 ≤ j ∧ j < a + 1 + vs.length
    · rw [if_pos h1, if_pos (by omega), show j - a = (j - (a + 1)) + 1 by omega, List.getD_cons_succ]
    · rw [if_neg h1]
      by_cases h2 : j = a
      · subst h2; simp [memGet, memSet]
      · rw [if_neg (by omega)]; simp [memGet, memSet, SMap.get_set_other _ v h2]

/-- Writing leaves every byte outside the bytes written. -/
theorem memGet_memWrite_outside (xs : List Byte) (m : SMap Byte) {a j : Nat} (h : j < a ∨ a + xs.length ≤ j) :
    memGet (memWrite m a xs) j = memGet m j := by rw [memGet_memWrite, if_neg (by omega)]

/-- Every write keeps the canonical form of a byte memory. -/
theorem wf_memWrite (xs : List Byte) {m : SMap Byte} (a : Nat) (h : SMap.wf zeroByte m) :
    SMap.wf zeroByte (memWrite m a xs) := by
  induction xs generalizing m a with
  | nil => exact h
  | cons v vs ih => exact ih (a + 1) (SMap.wf_set h)

theorem canonical_memWrite {m : SMap Byte} (a : Nat) (xs : List Byte) (h : Memory.wf m = true) :
    Memory.wf (memWrite m a xs) = true :=
  SMap.canonical_iff.2 (wf_memWrite xs a (SMap.canonical_iff.1 h))

/-- Writes of the block to the memory side, to a scratchpad and to the landing keep the form of every byte memory. -/
theorem memsOk_xwrite (a : Nat) (xs : List Byte) (h : b.memsOk = true) : (b.xwrite a xs).memsOk = true := by
  simp only [Block.memsOk, List.all_cons, List.all_nil, Bool.and_eq_true] at h ⊢
  exact ⟨canonical_memWrite a xs h.1, h.2⟩

theorem memsOk_swrite (n x : Nat) (xs : List Byte) (h : b.memsOk = true) : (b.swrite n x xs).memsOk = true := by
  simp only [Block.memsOk, List.all_cons, List.all_nil, Bool.and_eq_true] at h ⊢
  exact ⟨h.1, canonical_memWrite _ xs h.2.1, h.2.2⟩

theorem memsOk_lwrite (x : Nat) (xs : List Byte) (h : b.memsOk = true) : (b.lwrite x xs).memsOk = true := by
  simp only [Block.memsOk, List.all_cons, List.all_nil, Bool.and_eq_true] at h ⊢
  exact ⟨h.1, h.2.1, canonical_memWrite x xs h.2.2.1, h.2.2.2⟩

/-- The memories after reset, which list nothing, have the form. -/
theorem memsOk_reset : Block.reset.memsOk = true := rfl

/-- The bytes of a number are as many as asked for. -/
@[simp] theorem leBytes_length (n v : Nat) : (leBytes n v).length = n := by
  induction n generalizing v with
  | zero => rfl
  | succ n ih => simp [leBytes, ih]

end Sys2Proof.Machine
end

