-- ==== Sys2Proof/Laws/Counts.lean ====
section
/-! SUPPORT. What counting an occurrence, and setting the interrupt output, leave as they were. -/

namespace Sys2Proof.Machine

namespace CountsOnly

theorem refl (b : Block) : CountsOnly b b :=
  ⟨rfl, rfl, rfl, rfl, rfl, rfl, fun _ _ _ => rfl⟩

theorem trans {a b c : Block} (h : CountsOnly a b) (k : CountsOnly b c) : CountsOnly a c where
  pins := by rw [k.pins, h.pins]
  bus := by rw [k.bus, h.bus]
  ext := by rw [k.ext, h.ext]
  free := by rw [k.free, h.free]
  ao := by rw [k.ao, h.ao]
  fk := by rw [k.fk, h.fk]
  regs o hn ho := by rw [k.regs o hn ho, h.regs o hn ho]

/-- The interrupt output settles. -/
theorem settle (b : Block) : CountsOnly b (settle b) where
  pins := by unfold Machine.settle; split <;> (try split) <;> (try split) <;> rfl
  bus := by simp
  ext := by simp
  free := by simp
  ao := by simp
  fk := by simp
  regs o _ _ := by simp

/-- A register that counting may change. -/
theorem setReg {b : Block} {o : Nat} (w : Word) (ho : countReg o) : CountsOnly b (b.setReg o w) where
  pins := by simp
  bus := by simp
  ext := by simp
  free := by simp
  ao := setReg_ao b o w
  fk := by rw [setReg_fk]
  regs p _ hp := reg_setReg_other b w (fun h => hp (h ▸ ho))

theorem setTally (b : Block) (i v : Nat) : CountsOnly b (b.setTally i v) :=
  ⟨rfl, rfl, rfl, rfl, rfl, rfl, fun _ _ _ => rfl⟩

end CountsOnly

theorem tallyWrap_counts (b : Block) {i : Nat} (h : i < 256) : CountsOnly b (b.tallyWrap i) := by
  refine CountsOnly.trans (CountsOnly.setReg (o := TLY_WRAP (i / 32)) _ (Or.inr ?_)) (CountsOnly.setReg _ (Or.inl rfl))
  unfold TLY_WRAP; omega

theorem tallyBump_counts (b : Block) {i : Nat} (inc : Nat) (bytes : Bool) (h : i < 256) :
    CountsOnly b (b.tallyBump i inc bytes) := by
  unfold Block.tallyBump
  split
  · simp only
    split
    · exact (CountsOnly.setTally b _ _).trans (CountsOnly.setTally _ _ _)
    · split
      · exact ((CountsOnly.setTally b _ _).trans (CountsOnly.setTally _ _ _)).trans (tallyWrap_counts _ h)
      · exact (CountsOnly.setTally b _ _).trans (CountsOnly.setTally _ _ _)
  · simp only
    split
    · exact CountsOnly.setTally b _ _
    · split
      · exact (CountsOnly.setTally b _ _).trans (tallyWrap_counts _ h)
      · exact CountsOnly.setTally b _ _

/-- Counting an occurrence changes the tally, its wrap bits and the bandwidth windows alone. -/
theorem tally_counts (b : Block) (event index : Nat) (sq : Option Nat) (inc : Nat) :
    CountsOnly b (b.tally event index sq inc) := by
  have key : ∀ (xs : List Nat) (bytes : Bool) (c : Block), (∀ i ∈ xs, i < 256) → CountsOnly b c →
      CountsOnly b (c.each xs fun b i => b.tallyBump i inc bytes) := by
    intro xs bytes
    induction xs with
    | nil => intro c _ h; exact h
    | cons i xs ih =>
      intro c hx h
      exact ih _ (fun j hj => hx j (List.mem_cons_of_mem _ hj))
        (h.trans (tallyBump_counts c inc bytes (hx i (List.mem_cons_self ..))))
  have step : CountsOnly b (if b.rb TLY_CTRL 31 then b else
      b.each ((List.range 256).filter (b.tallyTakes event index sq)) fun b i =>
        b.tallyBump i inc (match tallyEvent event with | some e => e.bytes | none => false)) := by
    split
    · exact CountsOnly.refl b
    · refine key _ _ b (fun i hi => ?_) (CountsOnly.refl b)
      simp only [List.mem_filter, List.mem_range] at hi
      exact hi.1
  unfold Block.tally
  simp only
  generalize (if b.rb TLY_CTRL 31 = true then b else _) = c at step ⊢
  split
  · exact step
  · split
    · exact step.trans ⟨rfl, rfl, rfl, rfl, rfl, rfl, fun _ _ _ => rfl⟩
    · exact step

end Sys2Proof.Machine
end

