-- ==== Sys2Proof/Laws/LogFormat.lean ====
section
/-! SUPPORT. The formats of the log store (11.2): what is written as a codeword or an anchor reads back as good, and what training leaves alone. -/

namespace Sys2Proof.Machine

/-! Numbers in bytes. -/

theorem leNat_leBytes (n v : Nat) : leNat (leBytes n v) = v % 256 ^ n := by
  induction n generalizing v with
  | zero => simp [leBytes, leNat, Nat.mod_one]
  | succ n ih =>
    simp only [leBytes, leNat, ih, BitVec.toNat_ofNat]
    rw [show (256 : Nat) ^ (n + 1) = 256 * 256 ^ n by rw [Nat.pow_succ, Nat.mul_comm], Nat.mod_mul]

/-- A field that starts after the bytes before it. -/
theorem le_append_right (xs ys : List Byte) (o n : Nat) (h : xs.length = o) : le (xs ++ ys) o n = leNat (ys.take n) := by
  simp [le, ← h]

theorem crcBits_lt (n : Nat) {c : Nat} (h : c < 2 ^ 32) : crcBits n c < 2 ^ 32 := by
  induction n generalizing c with
  | zero => simpa [crcBits] using h
  | succ n ih =>
    simp only [crcBits]
    apply ih
    split
    · exact Nat.xor_lt_two_pow (by omega) (by decide)
    · omega

theorem crc32c_lt (xs : List Byte) : crc32c xs < 2 ^ 32 := by
  have step : ∀ (xs : List Byte) (c : Nat), c < 2 ^ 32 → xs.foldl (fun c x => crcBits 8 (c ^^^ x.toNat)) c < 2 ^ 32 := by
    intro xs
    induction xs with
    | nil => intro c h; simpa using h
    | cons x xs ih => intro c h; exact ih _ (crcBits_lt 8 (Nat.xor_lt_two_pow h (by omega)))
  exact Nat.xor_lt_two_pow (step xs _ (by decide)) (by decide)

/-! Codewords (R308, R309). -/

@[simp] theorem infoBytes_length (i : WordInfo) : (infoBytes i).length = 28 := by simp [infoBytes]

/-- What is written as a codeword reads back as a good one of its store. -/
theorem buildWord_good (i : WordInfo) (data : List Byte) (h : i.store < 2 ^ 32) : (buildWord i data).good i.store = true := by
  have hs : ((buildWord i data).says).store = i.store := by
    simp only [Codeword.says, buildWord, infoBytes, List.append_assoc]
    simp [le, leBytes, leNat]
    omega
  have hc : le (buildWord i data).info 28 4 = crc32c ((buildWord i data).data ++ (buildWord i data).info.take 28) := by
    simp only [buildWord]
    rw [le_append_right _ _ _ _ (infoBytes_length i), List.take_left' (infoBytes_length i),
      List.take_of_length_le (by simp), leNat_leBytes]
    exact Nat.mod_eq_of_lt (crc32c_lt _)
  simp only [Codeword.good, hs, hc, beq_self_eq_true, Bool.and_true]
  simp [buildWord]

/-- The kind that a codeword says is the one it was written with. -/
theorem buildWord_kind (i : WordInfo) (data : List Byte) (h : i.kind < 256) : ((buildWord i data).says).kind = i.kind := by
  simp only [Codeword.says, buildWord, infoBytes, List.append_assoc]
  simp [le, leBytes, leNat]
  omega

/-- Bytes with their CRC behind them, at the start of a codeword's data. -/
theorem padWord_sealed (i : WordInfo) (h zs : List Byte) (hl : h.length = 60) :
    le (padWord i (h ++ leBytes 4 (crc32c h) ++ zs)) 60 4 = crc32c h ∧
      (padWord i (h ++ leBytes 4 (crc32c h) ++ zs)).take 60 = h := by
  simp only [padWord, List.append_assoc]
  rw [le_append_right _ _ _ _ hl, List.take_left' (by simp), leNat_leBytes]
  exact ⟨Nat.mod_eq_of_lt (crc32c_lt h), List.take_left' hl⟩

/-- An anchor is read back as it was written (R310, Table 11.3). -/
theorem anchorWord_valid (x : Anchor) (stamp : Nat) : validAnchor (anchorWord x stamp) x = true := by
  obtain ⟨rest, hl, he⟩ : ∃ rest : List Byte, rest.length = 56 ∧ anchorBytes x =
      leBytes 4 0x4C53414E ++ rest ++ leBytes 4 (crc32c (leBytes 4 0x4C53414E ++ rest)) := by
    refine ⟨leBytes 4 (1 + b2n x.clean * 2 ^ 16) ++ leBytes 8 x.storeId.toNat ++ leBytes 8 x.seq ++ leBytes 4 x.geom.toNat ++
      leBytes 1 x.sparePct ++ leBytes 1 x.stripe ++ leBytes 2 0 ++ leBytes 8 x.targets ++ leBytes 4 (x.ckptSeg % 2 ^ 22) ++
      leBytes 4 x.ckptSeq ++ leBytes 4 (x.jrnSeg % 2 ^ 22) ++ List.replicate 8 0, by simp, ?_⟩
    simp only [anchorBytes, List.append_assoc]
  obtain ⟨i, hi⟩ : ∃ i, systemInfo 4 stamp (x.storeId.toNat % 2 ^ 32) = i := ⟨_, rfl⟩
  have hst : i.store = x.storeId.toNat % 2 ^ 32 := by simp [← hi, systemInfo]
  have hk : i.kind = 4 := by simp [← hi, systemInfo]
  have hs := padWord_sealed i (leBytes 4 0x4C53414E ++ rest) (List.replicate 4032 0) (by simp [hl])
  have hm : le (padWord i (leBytes 4 0x4C53414E ++ rest ++ leBytes 4 (crc32c (leBytes 4 0x4C53414E ++ rest)) ++
      List.replicate 4032 0)) 0 4 = 0x4C53414E := by
    simp only [padWord, List.append_assoc, le, List.drop_zero]
    rw [List.take_left' (by simp)]
    exact (leNat_leBytes _ _).trans (by decide)
  simp only [validAnchor, anchorWord, he, hi]
  rw [← hst, buildWord_good _ _ (by omega), buildWord_kind _ _ (by omega), hk]
  simp only [buildWord]
  rw [hm, hs.1, hs.2]
  simp

/-- The only anchor of a target that is online governs, where its checkpoint is there. -/
theorem Block.governing_one (b : Block) (t : Nat) (a : Anchor) (w : Codeword) (ha : b.flash.anchors = [(t, a)])
    (hw : b.flash.anchorWords = [(t, w)]) (hv : validAnchor w a = true) (ho : b.online t = true)
    (hf : (b.flash.formatted && a.storeId == b.flash.storeId && a.ckptSeq == b.flash.ckptSeq) = true) :
    b.governing [] = some a := by
  simp [Block.governing, ha, hw, SMap.find, ho, hv, Option.filter, hf]

/-! Training (R307). -/

/-- Training changes nothing in the devices. -/
theorem Block.trainChannels_ext (b : Block) (scan : NandScan) : (b.trainChannels scan).ext = b.ext := by
  have one : ∀ (b : Block) (c : Nat), (b.trainChannel scan c).ext = b.ext := by
    intro b c
    simp only [Block.trainChannel]
    split <;> simp [Block.setLs]
  simp only [Block.trainChannels, setReg_ext]
  exact each_keeps (P := fun x => x.ext = b.ext) _ _ b rfl fun x c h => (one x c).trans h

end Sys2Proof.Machine
end

