-- ==== Sys2Proof/Laws/Tags.lean ====
section
/-! SUPPORT. The ledger of the memory channels: what owing a write, taking and returning a tag, and the arrival of a line leave of the block. -/

namespace Sys2Proof.Machine

variable (b : Block)

/-! Writes that are owed (R61, R330). -/

/-- Owing a byte touches the owed writes and the serial numbers, nothing else. -/
theorem Block.owe_eq (a : Agent) (pa : Nat) (v : Byte) :
    b.owe a pa v = b.setFk fun k => { k with owed := (b.owe a pa v).fk.owed, serial := (b.owe a pa v).fk.serial } := by
  simp only [Block.owe]
  split <;> rfl

@[simp] theorem Block.owe_pins (a : Agent) (pa : Nat) (v : Byte) : (b.owe a pa v).pins = b.pins := by rw [Block.owe_eq]; rfl
@[simp] theorem Block.owe_bus (a : Agent) (pa : Nat) (v : Byte) : (b.owe a pa v).bus = b.bus := by rw [Block.owe_eq]; rfl
@[simp] theorem Block.owe_ao (a : Agent) (pa : Nat) (v : Byte) : (b.owe a pa v).ao = b.ao := by rw [Block.owe_eq]; rfl
@[simp] theorem Block.owe_ext (a : Agent) (pa : Nat) (v : Byte) : (b.owe a pa v).ext = b.ext := by rw [Block.owe_eq]; rfl
@[simp] theorem Block.owe_free (a : Agent) (pa : Nat) (v : Byte) : (b.owe a pa v).free = b.free := by rw [Block.owe_eq]; rfl
@[simp] theorem Block.owe_tags (a : Agent) (pa : Nat) (v : Byte) (w : Bool) : (b.owe a pa v).tags w = b.tags w := by
  rw [Block.owe_eq]; rfl

/-- After a byte is owed, its agent owes a write of its line. -/
theorem Block.owes_owe (a : Agent) (pa : Nat) (v : Byte) : (b.owe a pa v).owes a (pa / 64) = true := by
  simp only [Block.owe]
  split
  · rename_i h
    simp only [Block.owes, Block.setFk_fk, List.any_map, List.any_eq_true, Function.comp_apply] at h ⊢
    obtain ⟨x, hx, he⟩ := h
    refine ⟨x, hx, ?_⟩
    split <;> exact he
  · simp [Block.owes, MemReq.withByte]

/-- An agent that owes one byte has a write that is not acknowledged (R145). -/
theorem Block.owe_not_acked (a : Agent) (pa : Nat) (v : Byte) (p : Agent → Bool) (h : p a = true) :
    (b.owe a pa v).acked p = false := by
  have ho := b.owes_owe a pa v
  simp only [Block.owes, List.any_eq_true, Bool.and_eq_true, beq_iff_eq] at ho
  obtain ⟨x, hx, he, -⟩ := ho
  have : ((b.owe a pa v).fk.owed.any fun x => p x.req.agent) = true := List.any_eq_true.2 ⟨x, hx, by rw [he]; exact h⟩
  simp [Block.acked, this]

/-- A delivery's writes touch the owed writes and the serial numbers of the block, nothing else. -/
theorem Owing.run_ext (a : Agent) (most : Nat) (tr : ByteMap) (xs : List (Nat × Byte)) (o : Owing) :
    (Owing.run a most tr xs o).b.ext = o.b.ext := by
  induction xs generalizing o with
  | nil => rfl
  | cons x xs ih =>
    simp only [Owing.run]
    split
    · rfl
    · exact ih _
    · split
      · rw [ih]; simp
      · rfl

/-- No byte of a delivery is in memory before its write is acknowledged (R349, R370). -/
@[simp] theorem Block.oweRun_ext (a : Agent) (most : Nat) (tr : ByteMap) (xs : List (Nat × Byte)) :
    (b.oweRun a most tr xs).b.ext = b.ext := Owing.run_ext a most tr xs _

/-- A delivery never does more bytes than it has. -/
theorem Owing.run_n (a : Agent) (most : Nat) (tr : ByteMap) (xs : List (Nat × Byte)) (o : Owing) :
    (Owing.run a most tr xs o).n ≤ o.n + xs.length := by
  induction xs generalizing o with
  | nil => simp [Owing.run]
  | cons x xs ih =>
    simp only [Owing.run, List.length_cons]
    split
    · simp only; omega
    · exact Nat.le_trans (ih _) (by simp only; omega)
    · split
      · exact Nat.le_trans (ih _) (by simp only; omega)
      · simp only; omega

/-! Tags (R59). -/

@[simp] theorem Block.putTag_ext (w : Bool) (t : Nat) (x : MemTag) : (b.putTag w t x).ext = b.ext := by cases w <;> rfl
@[simp] theorem Block.putTag_ao (w : Bool) (t : Nat) (x : MemTag) : (b.putTag w t x).ao = b.ao := by cases w <;> rfl
@[simp] theorem Block.dropTag_ext (w : Bool) (t : Nat) : (b.dropTag w t).ext = b.ext := by cases w <;> rfl
@[simp] theorem Block.dropTag_ao (w : Bool) (t : Nat) : (b.dropTag w t).ao = b.ao := by cases w <;> rfl

/-- A tag that is taken is in use, by what took it. -/
@[simp] theorem Block.tags_putTag (w : Bool) (t : Nat) (x : MemTag) :
    (b.putTag w t x).tags w = SMap.put (b.tags w) t x := by cases w <;> rfl
/-- Taking a tag of one direction leaves those of the other. -/
@[simp] theorem Block.tags_putTag_other (w : Bool) (t : Nat) (x : MemTag) : (b.putTag (!w) t x).tags w = b.tags w := by
  cases w <;> rfl
@[simp] theorem Block.tags_dropTag (w : Bool) (t : Nat) : (b.dropTag w t).tags w = SMap.erase (b.tags w) t := by cases w <;> rfl
@[simp] theorem Block.tags_dropTag_other (w : Bool) (t : Nat) : (b.dropTag (!w) t).tags w = b.tags w := by cases w <;> rfl

/-! Lines that arrive (R61). -/

/-- The enabled bytes of a line reach memory, and nothing else changes. -/
theorem Block.putLine_keeps {P : Block → Prop} (r : MemReq) (h : P b) (hx : ∀ (c : Block) (a : Nat) (v : Byte), P c → P (c.xwrite a [v])) :
    P (b.putLine r) :=
  each_keeps _ _ b h fun c _ hc => hx c _ _ hc

@[simp] theorem Block.putLine_ao (r : MemReq) : (b.putLine r).ao = b.ao :=
  Block.putLine_keeps b (P := fun c => c.ao = b.ao) r rfl fun c a v h => by simpa using h
@[simp] theorem Block.putLine_fk (r : MemReq) : (b.putLine r).fk = b.fk :=
  Block.putLine_keeps b (P := fun c => c.fk = b.fk) r rfl fun c a v h => by simpa using h

/-- The memories keep their form when a line arrives. -/
theorem memsOk_putLine (r : MemReq) (h : b.memsOk = true) : (b.putLine r).memsOk = true :=
  Block.putLine_keeps b (P := fun c => c.memsOk = true) r h fun _ a v h => memsOk_xwrite _ a [v] h

end Sys2Proof.Machine
end

