-- ==== Sys2Proof/Laws/Threads.lean ====
section
/-! SUPPORT. What an instruction of a thread can do, said once: it issues and completes, it raises an exception, or it issues nothing. -/

namespace Sys2Proof.Machine

variable {b : Block} {th len : Nat} {t : Thread} {job : Job}

/-- An instruction that completes. -/
theorem instr_done {t' : Thread} {f : Block → Block} (word : Nat) {act : Job → Thread → IRes} (h : b.mayRun th len t job)
    (ha : act job t = .done t' f) :
    b.instr th word len act = f ((b.setThread th t').tally 0x27 (coreOf th) (some job.sq) 1) := by
  obtain ⟨hl, ht, hj, hh, hf⟩ := h
  simp [Block.instr, Block.issueInstr, whenLive_of b _ hl, ht, hj, Thread.mayIssue, hh, hf, ha]

/-- An instruction that raises an exception. -/
theorem instr_raise {cause : Nat} (word : Nat) {act : Job → Thread → IRes} (h : b.mayRun th len t job)
    (ha : act job t = .raise cause) : b.instr th word len act = b.raise th t job cause word := by
  obtain ⟨hl, ht, hj, hh, hf⟩ := h
  simp [Block.instr, Block.issueInstr, whenLive_of b _ hl, ht, hj, Thread.mayIssue, hh, hf, ha]

/-- The effect of an instruction on a thread that may issue it: the three cases. -/
theorem instr_cases (word : Nat) (act : Job → Thread → IRes) (h : b.mayRun th len t job) :
    (∃ t' f, act job t = .done t' f ∧
      b.instr th word len act = f ((b.setThread th t').tally 0x27 (coreOf th) (some job.sq) 1)) ∨
    (∃ cause, act job t = .raise cause ∧ b.instr th word len act = b.raise th t job cause word) ∨
    (∃ x, act job t = .stall x ∧ b.instr th word len act = b.setThread th { t with hold := .unit, issue := some x }) := by
  cases ha : act job t with
  | done t' f => exact .inl ⟨t', f, rfl, instr_done word h ha⟩
  | raise cause => exact .inr (.inl ⟨cause, rfl, instr_raise word h ha⟩)
  | stall x =>
    refine .inr (.inr ⟨x, rfl, ?_⟩)
    obtain ⟨hl, ht, hj, hh, hf⟩ := h
    simp [Block.instr, Block.issueInstr, whenLive_of b _ hl, ht, hj, Thread.mayIssue, hh, hf, ha]

/-- A thread left otherwise and an instruction counted: nothing else changes. -/
theorem setThread_tally_only (b : Block) (th : Nat) (t' : Thread) (event index : Nat) (sq : Option Nat) (inc : Nat) :
    OnlyThread th t' b (settle ((b.setThread th t').tally event index sq inc)) := by
  have h := (tally_counts (b.setThread th t') event index sq inc).trans (CountsOnly.settle _)
  have hthreads : (settle ((b.setThread th t').tally event index sq inc)).fk.threads = SMap.put b.fk.threads th t' := by
    rw [h.fk]; rfl
  refine ⟨?_, fun x hx => ?_, ?_⟩
  · rw [Block.findThread, hthreads, SMap.find_put_same]
  · rw [Block.findThread, hthreads, SMap.find_put_other _ t' hx]; rfl
  · exact ⟨h.pins, h.bus, h.ext, h.free, h.ao, by rw [h.fk]; rfl, fun o hn ho => h.regs o hn ho⟩

/-- An instruction that changes its thread alone completes. -/
theorem sets_of_done {i : Instr} {s : State} {t' : Thread} {word : Nat} {act : Job → Thread → IRes}
    (h : s.blk.mayRun th len t job) (hi : exec i s = s.upd fun b => b.instr th word len act)
    (ha : act job t = .done t' id) : Sets i s th t' := by
  refine ⟨_, hi, rfl, ?_⟩
  show OnlyThread th t' s.blk (settle (s.blk.instr th word len act))
  rw [instr_done word h ha]
  exact setThread_tally_only ..

end Sys2Proof.Machine
end

