-- ==== Sys2Proof/WellFormed.lean ====
section
/-! DEFINITION. When a command is well formed: its operands name instances that the block has. A command that is not well formed names nothing and changes nothing of what it would name (DEDUCED, log entry 5). -/

namespace Sys2Proof

/-- A logical thread (Table 15.3). -/
def threadNo (n : Nat) : Bool := decide (n < 4096)

/-- A camera port (Table 2.16). -/
def camPortNo (n : Nat) : Bool := decide (n < 12)

/-- A virtual channel (R251). -/
def vcNo (n : Nat) : Bool := decide (n < 16)

/-- A camera stream (R255). -/
def camStreamNo (n : Nat) : Bool := decide (n < 48)

/-- A stream of the log store (11.4). -/
def logStreamNo (n : Nat) : Bool := decide (n < 32)

/-- A translation context (R114). -/
def ctxNo (n : Nat) : Bool := decide (n < 64)

/-- A deck channel (R344). -/
def deckNo (n : Nat) : Bool := decide (n < 64)

/-- A trigger output (R71). -/
def trigNo (n : Nat) : Bool := decide (n < 12)

/-- A boom (R335). -/
def boomNo (n : Nat) : Bool := decide (n < 8)

/-- A trigger that has a dump of its own (R428). -/
def dumpTrig (n : Nat) : Bool := decide (n = 2 ∨ n = 4)

/-- A record of Table 15.11, in its order. -/
def dumpRec (n : Nat) : Bool := decide (n < 126)

/-- A submission queue (R381). -/
def queueNo (n : Nat) : Bool := decide (n < 64)

/-- A completion ring or a receive port (R395, R370). -/
def ringNo (n : Nat) : Bool := decide (n < 16)

/-- A flow that this node sources (R372). -/
def flowNo (n : Nat) : Bool := decide (n < 15)

/-- A flow that this node sources, or 15 for the packets that belong to none (R367). -/
def sourceNo (n : Nat) : Bool := decide (n < 16)

/-- A branch of the interrupt tree (Table 14.11). -/
def branchNo (n : Nat) : Bool := decide (n < 9)

/-- A ledger (Table 15.13). -/
def ledgerNo (n : Nat) : Bool := decide (n < 171)

/-- A tally counter (R436). -/
def tallyNo (n : Nat) : Bool := decide (n < 256)

/-- A flume link: 0 east, 1 west (R358). -/
def linkNo (n : Nat) : Bool := decide (n < 2)

/-- A pixel lane, the spare one among them (R37). -/
def laneNo (n : Nat) : Bool := decide (n < 9)

/-- A response code (Table 2.11). -/
def respCode (n : Nat) : Bool := decide (n < 4)

/-- A memory channel (Table 2.1). -/
def chanNo (n : Nat) : Bool := decide (n < 4)

/-- A byte of the link-control stream (Table 13.2). -/
def llcValue (n : Nat) : Bool := decide (n < 256)

/-- A window offset as `fk_h_addr` carries it (Table 2.14). -/
def aligned (n : BitVec 20) : Bool := decide (n.toNat % 4 = 0)

/-- A line address PA[51:6] (Table 2.8). -/
def memLine (r : MemReq) : Bool := decide (r.line < 2 ^ 46)

/-- An issue names a thread; the work of a unit names a command, of which there is no bound. -/
def tstep : TStep → Bool
  | .issue th _ => threadNo th
  | .work _ => true

/-- The operands of a command name what exists. -/
def Instr.wf : Instr → Bool
  | .coldResetAssert => true
  | .coldResetRelease _ => true
  | .warmResetAssert => true
  | .warmResetRelease => true
  | .pwrokRise => true
  | .pwrokFall => true
  | .vddFkLoss => true
  | .vddAoExcursion => true
  | .blockDomainResetEntry => true
  | .blockDomainResetExit => true
  | .selfTestDone _ => true
  | .pfailAssert => true
  | .pfailDeassert => true
  | .registerWrite off _ => aligned off
  | .hiWriteCommit off _ => aligned off
  | .loReadCapture off => aligned off
  | .registerAccessTimeout _ off => aligned off
  | .hclkRestart => true
  | .timebaseSample _ => true
  | .tbClkRestart _ => true
  | .triggerRise k => trigNo k
  | .triggerFall k => trigNo k
  | .camTrigWrite off _ => aligned off
  | .memReadResponse chan _ code _ => chanNo chan && respCode code
  | .memWriteAck chan _ code => chanNo chan && respCode code
  | .bypassClose => true
  | .bypassOpen => true
  | .glbBypWrite _ => true
  | .tapReset => true
  | .tapInstruction _ => true
  | .obsCtrlUpdate _ => true
  | .obsDataCapture => true
  | .paceWindowEnd _ => true
  | .paceClrMin _ => true
  | .pstoreWindowWrite off _ => aligned off
  | .syncAddWrite _ => true
  | .syncValWrite _ => true
  | .syncCfgWrite _ => true
  | .syncPoolWrite _ => true
  | .xlInvGo _ => true
  | .xlInvDone => true
  | .xlCtxEnable c _ => ctxNo c
  | .contextTeardown c _ => ctxNo c
  | .teardownComplete c _ => ctxNo c
  | .translationWalk _ _ _ _ code => respCode code
  | .fidWaitGrant => true
  | .faultRecordWrite code => respCode code
  | .xlFqResume _ => true
  | .xlFqAbort _ => true
  | .xlFqHeadWrite _ => true
  | .xlFqConfigWrite off _ => aligned off
  | .jobStart n => queueNo n
  | .threadStart _ => true
  | .jobComplete _ => true
  | .add th _ => threadNo th
  | .sub th _ => threadNo th
  | .and th _ => threadNo th
  | .or th _ => threadNo th
  | .xor th _ => threadNo th
  | .sll th _ => threadNo th
  | .srl th _ => threadNo th
  | .sra th _ => threadNo th
  | .mul th _ => threadNo th
  | .mulhs th _ => threadNo th
  | .mulhu th _ => threadNo th
  | .slt th _ => threadNo th
  | .sltu th _ => threadNo th
  | .seq th _ => threadNo th
  | .min th _ => threadNo th
  | .max th _ => threadNo th
  | .minu th _ => threadNo th
  | .maxu th _ => threadNo th
  | .clz th _ => threadNo th
  | .ctz th _ => threadNo th
  | .popc th _ => threadNo th
  | .addi th _ => threadNo th
  | .andi th _ => threadNo th
  | .ori th _ => threadNo th
  | .xori th _ => threadNo th
  | .slli th _ => threadNo th
  | .srli th _ => threadNo th
  | .srai th _ => threadNo th
  | .slti th _ => threadNo th
  | .sltiu th _ => threadNo th
  | .li th _ => threadNo th
  | .nop th _ => threadNo th
  | .endThread th _ => threadNo th
  | .fence th _ => threadNo th
  | .rdtime th _ => threadNo th
  | .rdtly th _ => threadNo th
  | .tstat th _ => threadNo th
  | .trap th _ => threadNo th
  | .pand th _ => threadNo th
  | .por th _ => threadNo th
  | .pxor th _ => threadNo th
  | .pandn th _ => threadNo th
  | .pnot th _ => threadNo th
  | .pmovs th _ => threadNo th
  | .ptos th _ => threadNo th
  | .pfirst th _ => threadNo th
  | .pcnt th _ => threadNo th
  | .vadd th _ => threadNo th
  | .vsub th _ => threadNo th
  | .vmul th _ => threadNo th
  | .vmulhs th _ => threadNo th
  | .vmulhu th _ => threadNo th
  | .vmin th _ => threadNo th
  | .vmax th _ => threadNo th
  | .vminu th _ => threadNo th
  | .vmaxu th _ => threadNo th
  | .vand th _ => threadNo th
  | .vor th _ => threadNo th
  | .vxor th _ => threadNo th
  | .vsll th _ => threadNo th
  | .vsrl th _ => threadNo th
  | .vsra th _ => threadNo th
  | .vadds th _ => threadNo th
  | .vaddus th _ => threadNo th
  | .vsubs th _ => threadNo th
  | .vsubus th _ => threadNo th
  | .vavgu th _ => threadNo th
  | .vabsd th _ => threadNo th
  | .vceq th _ => threadNo th
  | .vclt th _ => threadNo th
  | .vcltu th _ => threadNo th
  | .vsplat th _ => threadNo th
  | .vext th _ => threadNo th
  | .vins th _ => threadNo th
  | .vperm th _ => threadNo th
  | .vredadd th _ => threadNo th
  | .vmov th _ => threadNo th
  | .vfadd th _ => threadNo th
  | .vfsub th _ => threadNo th
  | .vfmul th _ => threadNo th
  | .vfma th _ => threadNo th
  | .vfmin th _ => threadNo th
  | .vfmax th _ => threadNo th
  | .vfclt th _ => threadNo th
  | .vfceq th _ => threadNo th
  | .vfcvt th _ => threadNo th
  | .vfcvti th _ => threadNo th
  | .vfrcp th _ => threadNo th
  | .vfrsq th _ => threadNo th
  | .ldB th _ => threadNo th
  | .ldBu th _ => threadNo th
  | .ldH th _ => threadNo th
  | .ldHu th _ => threadNo th
  | .ldW th _ => threadNo th
  | .ldWu th _ => threadNo th
  | .ldD th _ => threadNo th
  | .stB th _ => threadNo th
  | .stH th _ => threadNo th
  | .stW th _ => threadNo th
  | .stD th _ => threadNo th
  | .vld th _ => threadNo th
  | .vst th _ => threadNo th
  | .aadd th _ => threadNo th
  | .aswap th _ => threadNo th
  | .acas th _ => threadNo th
  | .amaxu th _ => threadNo th
  | .aminu th _ => threadNo th
  | .beq th _ => threadNo th
  | .bne th _ => threadNo th
  | .blt th _ => threadNo th
  | .bge th _ => threadNo th
  | .bltu th _ => threadNo th
  | .bgeu th _ => threadNo th
  | .bpany th _ => threadNo th
  | .bpnone th _ => threadNo th
  | .bpall th _ => threadNo th
  | .jal th _ => threadNo th
  | .jalr th _ => threadNo th
  | .signal th _ => threadNo th
  | .wait th _ => threadNo th
  | .srd th _ => threadNo th
  | .epochGet th _ => threadNo th
  | .epochSet th _ => threadNo th
  | .tbind th _ => threadNo th
  | .tadv th _ => threadNo th
  | .trel th _ => threadNo th
  | .balloc th _ => threadNo th
  | .ballocn th _ => threadNo th
  | .bfree th _ => threadNo th
  | .mmaMxi8 t => tstep t
  | .mmaE4m3 t => tstep t
  | .mmaE5m2 t => tstep t
  | .mmaE3m2 t => tstep t
  | .mmaE2m3 t => tstep t
  | .mmaE2m1 t => tstep t
  | .mmaI8 t => tstep t
  | .mmaBf16 t => tstep t
  | .mmaF16 t => tstep t
  | .mmaZero t => tstep t
  | .mmaStore t => tstep t
  | .winConv t => tstep t
  | .winMax t => tstep t
  | .winAvg t => tstep t
  | .winMin t => tstep t
  | .winSum t => tstep t
  | .rsmp t => tstep t
  | .warp t => tstep t
  | .skid t => tstep t
  | .gather t => tstep t
  | .scatter t => tstep t
  | .takeFrame t => tstep t
  | .takeRegion t => tstep t
  | .takeWaitTimeout _ => true
  | .codecOpen t => tstep t
  | .codecClose t => tstep t
  | .decode t => tstep t
  | .encode t => tstep t
  | .encodeSliceDone _ _ => true
  | .rnext t => tstep t
  | .wrap t => tstep t
  | .codecPipeStart _ => true
  | .logrd t => tstep t
  | .logwr t => tstep t
  | .slotPlace t => tstep t
  | .slotVoid t => tstep t
  | .commandAccept _ => true
  | .commandEnd _ => true
  | .camPortCfgWrite p _ => camPortNo p
  | .camPortClr p _ => camPortNo p
  | .camStreamEnable sn _ => camStreamNo sn
  | .camStreamDisable sn _ => camStreamNo sn
  | .camStreamCommit sn _ => camStreamNo sn
  | .camTableWrite off _ => aligned off
  | .camFrameStart p vc _ => camPortNo p && vcNo vc
  | .camFrameAdmit sn => camStreamNo sn
  | .camFrameStaleDrop sn => camStreamNo sn
  | .camImageLine p vc _ _ => camPortNo p && vcNo vc
  | .camFrameEnd p vc _ => camPortNo p && vcNo vc
  | .camPacketDiscard p vc _ => camPortNo p && vcNo vc
  | .camHeaderError p _ _ => camPortNo p
  | .camSotError p _ _ => camPortNo p
  | .feLinePick lane => laneNo lane
  | .feLineDone lane => laneNo lane
  | .pixelLaneFault lane => laneNo lane
  | .lsMount _ => true
  | .lsUnmount => true
  | .lsFormat _ => true
  | .lsCheckpoint => true
  | .lsCreate => true
  | .lsDelete => true
  | .lsTrim => true
  | .lsCmdDone _ => true
  | .lsFlushTimeout sn => logStreamNo sn
  | .stripeUnitProgram sn => logStreamNo sn
  | .nandProgramDone _ _ => true
  | .nandEraseDone _ _ => true
  | .nandReadDone _ _ => true
  | .nandBusTimeout _ => true
  | .lsAutoCheckpoint => true
  | .lsAgeCheck => true
  | .reclaimStart _ => true
  | .reclaimCommit => true
  | .reclaimDone => true
  | .boomCfgWrite k _ => boomNo k
  | .boomWatermarkWrite off _ => aligned off
  | .boomFreeRead k => boomNo k
  | .deckChannelEnable c _ => deckNo c
  | .deckChannelDisable c _ => deckNo c
  | .deckAdvance c _ => deckNo c
  | .dkRelease c _ => deckNo c
  | .deckOpen c => deckNo c
  | .slotParkRecheck _ => true
  | .slotCopyDone _ _ => true
  | .slotDeliver c _ => deckNo c
  | .deckClose c _ => deckNo c
  | .stragglerVoid c _ => deckNo c
  | .flumeEnable _ => true
  | .flumeDisable _ => true
  | .linkTrain d => linkNo d
  | .linkTrained d _ _ partner => linkNo d && partner / 16 ≤ 32
  | .llcSilenceTimeout d => linkNo d
  | .linkParityError d => linkNo d
  | .llcCreditReturn d v => linkNo d && llcValue v
  | .llcLinkAck d v => linkNo d && llcValue v
  | .llcReplayRequest d v => linkNo d && v / 64 ≤ 32
  | .llcDeliveryAck d _ v _ => linkNo d && llcValue v
  | .llcLinkError d v => linkNo d && llcValue v
  | .flumePacketSend n _ => sourceNo n
  | .flumeForward d _ => linkNo d
  | .flumeDataPacket d _ => linkNo d
  | .flumeOpen d _ => linkNo d
  | .flumeDeckEnd d _ => linkNo d
  | .flumeAbort d _ => linkNo d
  | .flumeGap d _ => linkNo d
  | .flumeReport d _ => linkNo d
  | .flumeNotice d _ => linkNo d
  | .flowAcquire c => deckNo c
  | .flowAckTimeout n => flowNo n
  | .rxRecordWrite r _ => ringNo r
  | .flRxpRel r _ => ringNo r
  | .sqDoorbell n _ => queueNo n
  | .sqEntryFetch n code => queueNo n && respCode code
  | .queueStop n => queueNo n
  | .sqInvalidate n _ => queueNo n
  | .sqEnable n _ => queueNo n
  | .sqDisable n _ => queueNo n
  | .sqResume n _ => queueNo n
  | .sqPauseWrite n _ => queueNo n
  | .queueOff n => queueNo n
  | .entryNop n => queueNo n
  | .entryRun n => queueNo n
  | .entryFence n => queueNo n
  | .completionWrite r code => ringNo r && respCode code
  | .crHeadWrite r _ => ringNo r
  | .crSizeWrite r _ => ringNo r
  | .crIrqTimer r => ringNo r
  | .intCauseClear b _ => branchNo b
  | .intTest b _ => branchNo b
  | .faultDetected _ => true
  | .stageStall _ => true
  | .ledgerBreach i => ledgerNo i
  | .ldgSelWrite _ => true
  | .rstThread _ => true
  | .rstEngine _ => true
  | .rstStand _ => true
  | .rstSubsystem _ => true
  | .rstBlock _ => true
  | .domainResetEnd _ => true
  | .hangEvaluate _ => true
  | .hangFire => true
  | .dumpStart k => dumpTrig k
  | .obsPortTimeout k => dumpRec k
  | .dumpComplete _ => true
  | .tlyCfgWrite i _ => tallyNo i
  | .tlyFreezeWrite _ => true
  | .tlyClrAll _ => true
  | .tlyWinWrite _ => true
  | .tlyClrPeak _ => true
  | .tlyWindowEnd => true
  | .vddAoInRange => true
  | .memRequestTransfer r => memLine r
  | .nandIdleLimit => true

end Sys2Proof
end

