-- ==== Sys2Proof/Tests/Slice0.lean ====
section
/-! SUPPORT. Tests: what the well-formedness check refuses, a witness for the hypotheses of every statement, clause by clause and at the ends of their ranges, and values that the spec's tables and examples give. -/

namespace Sys2Proof.Tests

set_option Elab.async false

open Sys2Proof Sys2Proof.Machine

/-! Small states. -/

/-- A block that has just become ready with every port strapped present. -/
def ready : Block :=
  { Block.reset with
    pins := { Block.reset.pins with coldN := true }
    ao := { Ao.reset with
      phase := .ready
      straps := { mem := 0xF, cam := 0xFFF, nand := 0xFF, fe := true, fw := true, tb := true, mfr := 0 } } }

/-- A state with an empty queue. -/
def on (b : Block) : State := { pending := [], blk := b }

/-- A block with registers stored. -/
def regs (b : Block) (l : List (Nat × Word)) : Block := l.foldl (fun b e => b.setReg e.1 e.2) b

/-- A header: 1,024 bytes of code, 4 threads, MINCONC 1, one private counter, 4 KiB of scratchpad at 0, entry at 64. -/
def header : BitVec 512 :=
  BitVec.ofNat 512 (1024 * 2 ^ 0x40 + 4 * 2 ^ 0x60 + 2 ^ 0x70 + 2 ^ 0x80 + 4 * 2 ^ 0xC0 + 64 * 2 ^ 0xE0)

/-- A job of queue 0 whose threads are all placed. -/
def job : Job :=
  { sq := 0, ring := 0, idx := 0, entry := 0, header := header, ctx := 0, epoch := 0, nextThread := 4, lent := [5]
    tst := [], ended := none, placed := 0, voided := 0 }

/-- A thread at the start of its code: s1 = 64, s2 the first stand buffer, s3 the first landing buffer. -/
def thread : Thread :=
  { job := 0, jidx := 0, s := [(1, 64), (2, 0x20000000), (3, 0x40000000), (4, 1000)], v := [], p := [], t := [], pc := 64
    ep := 0, hold := .none, issue := none }

/-- Boom 0 has four buffers in the landing, boom 1 four in every stand; job 0 holds the first of each; private counter 0
of the job is counter 5. -/
def running : Block :=
  (regs ready [(BOOM_CFG 0, 0x00040000), (BOOM_CFG 1, 0x80040010)]).setFk fun k => { k with
    threads := [(0, thread)], jobs := [(0, job)], nextId := 1
    counters := [(5, { value := 3, epoch := 0, owner := 0, lent := some 0 })]
    booms := { k.booms with held := [(bufKey 0 landPlace 0, .job 0), (bufKey 1 0 0, .job 0)] } }

def rf (d a b : BitVec 5) (w : BitVec 2) (p : BitVec 3) : RForm := { d := d, a := a, b := b, w := w, p := p }

/-! Witnesses: threads. -/

/-- Scalar, immediate, system, predicate, vector, float and conversion instructions, branches and jumps: a thread may
issue 4 and 8 bytes, at the first and at the last place of its code. -/
theorem wit_thread_may_run :
    running.mayRun 0 4 thread job ∧ running.mayRun 0 8 thread job ∧
    (running.setFk fun k => { k with threads := [(4095, { thread with pc := 1084 })] }).mayRun 4095 4
      { thread with pc := 1084 } job := by decide +kernel

/-- The float formats and the conversions of VFCVT and VFCVTI in each direction. -/
theorem wit_float_forms :
    (floatFmt 0).isSome ∧ (floatFmt 1).isSome ∧ (floatFmt 2).isSome ∧ (cvtSrc 0).isSome ∧ (cvtSrc 6).isSome ∧
    ((2 : BitVec 5).getLsbD 4 = false) := by decide +kernel

/-- Loads, stores and atomics: an aligned place at both ends of the scratchpad, in a stand buffer and in the landing. -/
theorem wit_local_places :
    64 % 8 = 0 ∧ running.local? 0 job 0 64 8 = some (.stand 0 64) ∧ running.local? 0 job 0 4088 8 = some (.stand 0 4088) ∧
    running.local? 0 job 0 0x200043F8 8 = some (.stand 0 17400) ∧ running.local? 0 job 0 0x400000F8 8 = some (.landing 248) ∧
    running.local? 0 job 0 0x40000100 4 = none ∧ running.local? 0 job 0 4096 4 = none := by decide +kernel

/-- VLD and VST of the first 64 bytes, and of a line of which only the active lanes are in reach. -/
theorem wit_vector_lanes :
    (∀ i, i < 64 → (running.local? 0 job 0 (64 + i) 1).isSome) ∧
    (∀ i, i < 64 → ({ thread with p := [(1, 0xFF)] }.gov 1).getLsbD i = true → (running.local? 0 job 0 (4096 - 8 + i) 1).isSome) := by
  decide +kernel

/-- Branch targets at both ends of the range, and just outside it. -/
theorem wit_branch_targets :
    (64 : Int) + 4 * (-16 : BitVec 13).toInt = 0 ∧ (64 : Int) + 4 * (-17 : BitVec 13).toInt < 0 ∧
    (64 : Int) + 4 * (262127 : BitVec 21).toInt = 2 ^ 20 - 4 ∧ (2 : Int) ^ 20 ≤ 64 + 4 * (262128 : BitVec 21).toInt ∧
    thread.sc 0 = thread.sc 0 ∧ thread.sc 5 = thread.sc 6 := by decide +kernel

/-- Each of the raising operands of ExceptionsAreRaised. -/
theorem wit_raises :
    (rf 0 0 0 1 0).w ≠ 0 ∧ (rf 0 0 1 0 0).b ≠ 0 ∧ 64 ≤ (64 : BitVec 12).toNat ∧ 16 ≤ (16 : BitVec 5).toNat ∧
    8 ≤ (8 : BitVec 5).toNat ∧ (rf 0 0 0 3 0).w = 3 ∧ (thread.sc 1 + (1 : BitVec 13).signExtend 64).toNat % 8 ≠ 0 ∧
    (thread.sc 1 + (4032 : BitVec 13).signExtend 64).toNat % 4 = 0 ∧
    running.local? 0 job 0 (thread.sc 1 + (4032 : BitVec 13).signExtend 64).toNat 4 = none := by decide +kernel

/-- Words that spell no instruction: MAJOR 0x00 and 0x3F, an FN that ALU does not define; the first at the thread's pc. -/
theorem wit_no_instruction :
    decodeInstr 0 0 0 = none ∧ decodeInstr 0 0xFC000000 0 = none ∧ decodeInstr 0 0x080007E0 0 = none ∧
    fetchOk job thread (instrLen 0) = true ∧ running.mayRun 0 4 thread job ∧ job.ended = none := by decide +kernel

/-- An exception at a free and at a full capture register. -/
theorem wit_exception_capture :
    running.findThread 0 = some thread ∧ running.findJob thread.job = some job ∧ job.ended = none ∧ excAccess < 16 ∧
    job.sq < 64 ∧ running.rb GLB_EXC_STAT 31 = false ∧ (regs running [(GLB_EXC_STAT, 0x80000000)]).rb GLB_EXC_STAT 31 = true := by
  decide +kernel

/-- A private and a shared counter; WAIT on a reached target and on one that is not; a descriptor to bind; a bound handle. -/
theorem wit_sync_and_handles :
    running.resolveCtr job 0 0 = some 5 ∧
    0 ≤ ((running.counter 5).value - 3).toInt ∧ ((running.counter 5).value - 4).toInt < 0 ∧
    (running.counter 5).epoch = thread.ep ∧ (running.counter 5).epoch ≠ { thread with ep := 1 }.ep ∧
    128 % 128 = 0 ∧ running.local? 0 job 0 128 128 = some (.stand 0 128) ∧
    SMap.find { thread with t := [(15, (0 : BitVec 1024))] }.t 15 = some 0 := by decide +kernel

/-- The shared counters of running start at 0 only where SHARED_BASE is 4,095 or less. -/
theorem wit_shared_counter : (regs running [(SYNC_POOL, 0xFFF)]).resolveCtr job 1 4095 = some 4095 := by decide +kernel

/-- What the checks of R338 answer: 0 and the buffer, or the reason and the boom. -/
def answer : Except (Nat × Nat) Nat → Nat × Nat
  | .ok key => (0, key)
  | .error e => e

/-- Sizes that no boom serves, that one serves, and that one would serve but has no buffer for; a pointer for each check. -/
theorem wit_buffers :
    running.allocFrom 1 0 ≠ [] ∧ running.allocFrom (2 ^ 22) 0 = [] ∧ (running.allocFrom 1024 0) ≠ [] ∧
    answer (running.checkPtr 0 0 0x40000000) = (0, bufKey 0 landPlace 0) ∧ running.fk.booms.waiters = [] ∧
    answer (running.checkPtr 0 0 0x50000000) = (1, 0) ∧ answer (running.checkPtr 0 0 0x40000001) = (2, 0) ∧
    answer (running.checkPtr 1 0 0x40000000) = (3, 0) ∧ answer (running.checkPtr 0 0 0x40000100) = (4, 0) ∧
    answer (running.checkPtr 0 0 0x20004400) = (4, 1) := by decide +kernel

/-- The frame statements: an instruction of thread 0 that goes on. -/
theorem wit_frames :
    registerOnly (.add 0 (rf 1 2 3 0 0)) = some 0 ∧ threadLocal (.stB 0 { d := 1, a := 1, imm := 0 }) = true ∧
    (running.findThread 0).isSome ∧ fromElsewhere (.add 0 (rf 1 2 3 0 0)) = false ∧ Block.reset.live = false := by
  decide +kernel

/-- A block at rest and one that runs, with nothing waiting. -/
theorem wit_idle : (on ready).pending = [] ∧ ready.live = true ∧ Block.reset.live = false ∧ ready.pins.hclkOn = true := by decide +kernel

/-! Witnesses: tensor commands, slots and decks. -/

/-- A local tensor of the job: TYPE INT8, SPACE 1, two dimensions. -/
def local8 (base cols rows : Nat) : Desc :=
  BitVec.ofNat 1024 (base + 2 * 2 ^ 0x48 + 2 ^ 0x56 + cols * 2 ^ 0x80 + rows * 2 ^ 0xA0 +
    (2 ^ 0xC0 + 2 ^ 0xE0 + 2 ^ 0x100 + 2 ^ 0x120) + 2 ^ 0x140 + cols * 2 ^ 0x170)

def form : TForm :=
  { op := 0, ta := 0, tb := 0, tc := 0, sx := 0, md := 0, sh := 0, ctr := 0, inc := 0, sy := 0, imm := 0 }

/-- A command of a unit, issued by thread 0. -/
def cmd (u : CmdUnit) (op : TOp) : Cmd :=
  { unit := u, op := op, form := form, job := 0, thread := 0, jidx := 0, ta := local8 128 4 2, tb := local8 256 4 2, tc := 0
    pb := 0, pbAddr := 64, x := 0, y := 0, epoch := 0, sig := none, phase := .accepted, cursor := 0, staging := 0, stage := []
    fail := none, result := 0, scratch := [], owners := [], lines := [], need := none, active := false, order := 0 }

/-- The running block with commands. -/
def withCmds (l : List (Nat × Cmd)) : Block := running.setFk fun k => { k with cmds := l, nextId := 100 }

/-- A thread whose handle 0 is bound. -/
def bound : Thread := { thread with t := [(0, local8 128 4 2)] }

/-- The legal form of a row of Table 5.12 with handle 0 everywhere and the parameter block at 64. -/
def legal (p : TSpec) : TForm :=
  { form with sx := if p.sx then 1 else 0, imm := BitVec.ofNat 6 (p.imms.headD 0) }

/-- Every row of Table 5.12 has a form that is legal, with INC 0 and with a counter; a unit has room, or not. -/
theorem wit_tensor_issue :
    (∀ p ∈ [specMma, specMmaZero, specMmaStore, specConv, specWin, specRsmp, specWarp, specSkid, specGather, specScatter,
        specTakeFrame, specTakeRegion, specCodec, specLogrd, specLogwr, specSlotPlace, specSlotVoid],
      p.illegal (legal p) = false ∧ (bound.named p.a 0).isSome ∧ (bound.named p.b 0).isSome ∧ (bound.named p.c 0).isSome ∧
      (running.issueCtr job (legal p)).toOption = some none ∧
      (running.issueCtr job { legal p with inc := 1 }).toOption = some (some 5) ∧
      (running.readPb p job bound 0 (legal p)).toOption.isSome) ∧
    running.live = true ∧ fetchOk job bound 8 = true ∧ running.inflight 0 0 < 32 ∧
    running.queuedIn (.engine 0) < unitPlaces (.engine 0) ∧
    ¬ (withCmds ((List.range 16).map fun i => (i, cmd (.engine 0) .mma))).queuedIn (.engine 0) < unitPlaces (.engine 0) := by
  decide +kernel

/-- A thread that waits in issue with what it has read, and one of another stand that waits longer on the same engine. -/
theorem wit_stalled_issue :
    let kept : Issue := { unit := .engine 0, pb := 7, sig := some 5 }
    let held : Thread := { bound with hold := .unit, issue := some kept }
    let b := running.setFk fun k => { k with threads := [(0, held), (1, held)] }
    b.live = true ∧ b.findThread 0 = some held ∧ held.hold = .unit ∧ kept.sig = some 5 ∧ fetchOk job held 8 = true ∧
    b.placeWaiters (.engine 0) = [0, 1] ∧ b.placeRank (.engine 0) 1 ≤ b.placeRank (.engine 0) 0 ∧
    ¬ b.placeRank (.engine 0) 0 ≤ b.placeRank (.engine 0) 1 := by decide +kernel

/-- An accepted MMA.ZERO and an accepted MMA.I8 with two rows and two columns, the oldest of their engine. -/
theorem wit_matrix :
    let b := withCmds [(7, cmd (.engine 0) .mmaZero), (8, { cmd (.engine 1) .mma with form := { form with op := 6, md := 1 } })]
    b.live = true ∧ (b.findCmd 7).isSome ∧ (cmd (.engine 0) .mmaZero).phase = .accepted ∧
    b.cmdWaits (cmd (.engine 0) .mmaZero) = false ∧ b.firstOf 7 (cmd (.engine 0) .mmaZero) = true ∧
    b.firstOf 8 (cmd (.engine 1) .mma) = true ∧ ((b.rowsOf (cmd (.engine 1) .mma) (local8 128 4 2)).map List.length) = some 2 := by
  decide +kernel

/-- A queued command that is next, and a finished one whose job runs. -/
theorem wit_accept_and_end :
    let c := { cmd (.skidder 3) .skid with phase := .queued }
    let b := withCmds [(7, c), (8, { cmd .gather .gather with phase := .finished 0xFF, sig := some 5 })]
    let w : MemReq := { write := true, line := 1024, agent := .gather 8, data := 0, be := 1 }
    let owing := b.setFk fun k => { k with wrTags := [(3, { req := w, chan := 0, retry := false, serial := 0 })] }
    b.fk.owed = [] ∧ b.fk.wrTags = [] ∧ b.fk.retries = [] ∧ owing.fk.wrTags.any (fun e => e.2.req.agent == .gather 8) = true ∧
    b.live = true ∧ b.findCmd 7 = some c ∧ b.nextToAccept 7 c = true ∧ b.cmdWaits c = false ∧ (b.findJob c.job).isSome ∧
    (b.cmdLocal c 120 8).isSome ∧ (b.counter 5).epoch = c.epoch := by decide +kernel

/-- The destination of a deck channel: INT8, context 0, 64 bytes for each of 4 positions. -/
def dest : Desc :=
  BitVec.ofNat 1024 (0x10000 + 2 * 2 ^ 0x48 + 64 * 2 ^ 0x80 + 4 * 2 ^ 0xA0 + (2 ^ 0xC0 + 2 ^ 0xE0 + 2 ^ 0x100 + 2 ^ 0x120) +
    2 ^ 0x140 + 64 * 2 ^ 0x170)

/-- An open deck of 4 slots with a window of 2, at landing offset 0. -/
def deck : Deck :=
  { desc := dest, ctrl := 0x80000000, slots := 0x00040002, space := 0x00010000, dstride := 4, dbuf := 2, info := 0x20000
    isOpen := true, closed := [], status := [], mask := [], pos := 0, valid := 0, voided := 0, stamp := 0, short := false
    surplus := none, closing := 0, cursor := 0, sending := [], sent := [], late := [], times := [], strag := [], surplusRec := [], downEpoch := none, flows := []
    pairs := [], need := none, fail := none }

/-- A leaf for page `n` of context 0 that maps it to itself. -/
def leaf (n : Nat) : Leaf := { ctx := 0, page := n, large := false, entry := BitVec.ofNat 64 (n * 65536 + 15) }

/-- Channel 0 is enabled with that deck, and the pages it writes are cached. -/
def decked (d : Deck) (l : List (Nat × Cmd)) : Block :=
  (regs (withCmds l) [(DK_CTRL 0, 0x80000000), (DK_BUDGET 0, 10), (BOOM_CFG 0, 0x00040040), (XL_CTX_CFG 0, 0x90000000)]).setFk
    fun k => { k with decks := [(0, d)], xl := { k.xl with cache := [leaf 1, leaf 2, leaf 3] } }

/-- A SLOT of channel 0, deck 0. -/
def slotCmd (op : TOp) (i : Nat) : Cmd :=
  { cmd (.landing 0) op with x := BitVec.ofNat 64 i, ta := local8 128 64 1, form := { form with imm := if op = .slotVoid then 2 else 0 } }

/-- Every row of Table 12.6: copied, voided, beyond the window, past the last slot, under another epoch. -/
theorem wit_slot_rows :
    let b := decked deck [(7, slotCmd .slotPlace 1)]
    b.live = true ∧ b.findCmd 7 = some (slotCmd .slotPlace 1) ∧ b.cmdWaits (slotCmd .slotPlace 1) = false ∧
    b.slotBehind 7 (slotCmd .slotPlace 1) = false ∧
    b.slotOut (slotCmd .slotPlace 1) = .copy ∧ b.slotOut (slotCmd .slotVoid 1) = .void 2 ∧ b.slotOut (slotCmd .slotPlace 2) = .wait ∧
    b.slotOut (slotCmd .slotPlace 4) = .done stMalformed ∧ b.slotOut { slotCmd .slotPlace 0 with epoch := 1 } = .done stEpochStale := by
  decide +kernel

/-- A SLOT whose copy is in progress, at either SLOT status, and its sample. -/
theorem wit_slot_copy :
    let c := { slotCmd .slotPlace 1 with cursor := 1 }
    let b := decked deck [(7, c)]
    b.findCmd 7 = some c ∧ c.form.imm.toNat ≤ 1 ∧ b.deck? c.chan = some deck ∧ b.slotOut c = .copy ∧
    ((b.sample c dest (travAll (posDesc dest 0))).toOption.map List.length) = some 64 := by decide +kernel

/-- A deck whose head slot is placed, voided, open; one whose last slot is delivered; one that is not open yet. -/
theorem wit_decks :
    let d := { deck with closed := [(0, .placed 0 (some 0))] }
    let e := { deck with ctrl := 0x88000000, closed := [(0, .voided 2 none)] }
    let b := decked d []
    b.live = true ∧ b.deck? 0 = some d ∧ b.deckRuns 0 d = true ∧ d.target = false ∧ d.fail = none ∧ b.deckEnds 0 d = false ∧
    b.dkHead 0 = 0 ∧ SMap.find d.closed 0 = some (.placed 0 (some 0)) ∧ d.compact = false ∧ e.compact = true ∧
    SMap.find e.closed 0 = some (.voided 2 none) ∧ (Slot.voided 2 none).isPlaced = false ∧
    (b.oweRun (.landing 0) 64 (b.mapMust d.ctx) (b.posWrites d 0 0 (some (d.place 0)))).halt = none := by decide +kernel

theorem wit_deck_boundary :
    let b := regs (decked deck []) [(DK_POS 0, 0x00040000)]
    let shut := { deck with isOpen := false }
    b.deckRuns 0 deck = true ∧ b.deckEnds 0 deck = true ∧ deck.compact = false ∧ b.dkInflight 0 < 15 ∧ b.dkDeck 0 + 1 < 2 ^ 24 ∧
    deck.infoAddr 0 + 64 + deck.maskBytes + deck.statusBytes = 0x200C0 ∧ b.deckFlows 0 = [] ∧
    b.acked (· == .landing 0) = true ∧ (decked shut []).spaceFits shut = true ∧
    (decked shut []).dkInflight 0 < shut.dbuf ∧ (decked deck []).stragLimit 0 deck = some 10 ∧
    SMap.find deck.closed 0 = none := by decide +kernel

/-- A close in each of its parts: the mask and status bytes, the header but its first word, and that word. -/
theorem wit_deck_parts :
    let m := deck.maskBytes + deck.statusBytes
    ∀ e ∈ [(0, m), (m - 1, m), (m, m + 60), (m + 59, m + 60), (m + 60, m + 64)],
      let d := { deck with closing := 3, cursor := e.1 }
      let b := regs (decked d []) [(DK_POS 0, 0x00040000)]
      let block := bytesAt (d.infoAddr (b.dkDeck 0)) (d.infoBytes (b.dkDeck 0) (b.deckEpoch 0))
      let inOrder := block.drop 64 ++ (block.take 64).drop 4 ++ block.take 4
      b.deckRuns 0 d = true ∧ (b.oweRun (.landing 0) 64 (b.mapSkip d.ctx) ((inOrder.take e.2).drop e.1)).halt = none := by
  decide +kernel

/-- The writes of a deck channel: an enable that is carried out and one that is refused; a disable, an advance, a release. -/
theorem wit_deck_writes :
    let off := (regs (decked deck []) [(DK_CTRL 0, 0)]).xwrite 0x10000 (leBytes 128 (dest.toNat + 0x20000))
    let b := regs off [(DK_DESC_LO 0, 0x10000), (DK_SLOTS 0, 0x00040002), (DK_SPACE 0, 0x00010000), (DK_DBUF 0, 2), (DK_DSTRIDE 0, 4)]
    b.portCase (DK_CTRL 0) = .go ∧ b.deckEn 0 = false ∧ b.xlateNow 0 (b.pair (DK_DESC_LO 0)) false = some 0x10000 ∧
    b.dkOk 0 (b.dkConfig 0 (BitVec.ofNat 1024 (b.xnat 0x10000 128))) = true ∧
    off.dkOk 0 (off.dkConfig 0 (BitVec.ofNat 1024 (off.xnat 0x10000 128))) = false ∧
    off.xlateNow 0 0x50000 false = none ∧ (false, 0x10000 / 64) ∉ b.fk.accounted ∧ (decked deck []).deckEn 0 = true ∧ (decked deck []).portCase (DK_RELEASE 63) = .go := by
  decide +kernel

/-- A session of H.264 in 64 × 256 samples, one slice for each of its 4 rows of 64. -/
def session : Session :=
  { cfg := BitVec.ofNat 512 (2 ^ 16 + 64 * 2 ^ 32 + 256 * 2 ^ 48), ctx := 0, home := 0, pool := [], bufs := [], decoded := 0
    sinceIdr := 0, needIdr := false, firstGop := true, lastQpInit := none, lastIdr := none, lastP := none, kept := 0
    slots := [], begun := false, skipRasl := false }

/-- An ENCODE that has finished row 1, with a slice table at 512 and a counter for its slices. -/
theorem wit_encode_slice :
    let c := { cmd (.session 0) .codec with
      pb := BitVec.ofNat 512 (4 * 2 ^ 24 + 512 * 2 ^ 96 + 2 ^ 0x9F), scratch := [1, 0, 0, 0, 0, 0, 0, 0, 0, 0] }
    let b := (withCmds [(8, c)]).setFk fun k => { k with codec := { k.codec with sessions := [(0, session)] } }
    b.cmdWaits c = false ∧ cdCmd c.pb = 4 ∧ (encRun c).isSome ∧ b.sess (cdNum c.pb) = some session ∧ 1 = enSliceEnd session 0 ∧
    0 + 1 < enSlices session ∧ b.sliceCtr c = some (some 5) ∧ (b.counter 5).epoch = c.epoch ∧ pbW c.pb 3 ≠ 0 ∧
    (b.cmdLocal c (pbW c.pb 3) 4).isSome := by decide +kernel

/-- A TAKE whose stream has nothing, and a decode whose turn it is. -/
theorem wit_take_and_pipe :
    let t := { cmd (.take 0) .takeFrame with pb := BitVec.ofNat 512 (2 ^ 96) }
    let c := { cmd (.session 0) .codec with pb := BitVec.ofNat 512 (3 * 2 ^ 24) }
    let b := withCmds [(7, t), (8, c)]
    b.cmdWaits t = false ∧ pbW t.pb 3 ≠ 0 ∧ b.firstOf 7 t = true ∧ (b.str 0).waits = true ∧ b.cmdWaits c = false ∧
    b.pipeKind c = some (0, 4) ∧ c.active = false ∧ b.codecNext 8 c = true := by decide +kernel

/-! Witnesses: supplies, resets, the register port. -/

/-- In cold reset; a block that is ready; one that is out of its range; one in each phase. -/
theorem wit_phases :
    Block.reset.pins.vddAo = true ∧ Block.reset.pins.coldN = false ∧ ready.pins.coldN = true ∧ ready.inReset = false ∧
    Block.reset.inReset = true ∧ ({ Block.reset with pins := { Block.reset.pins with vddAo := false } }).pins.vddAo = false ∧
    ready.live = true ∧ ready.ao.rst = [] := by decide +kernel

/-- Table 2.7 step by step: entering with and without tags in use, held with every condition of Table 2.6, self-test. -/
theorem wit_reset_steps :
    let entering := { ready with ao := { ready.ao with phase := .entering } }
    let busy := entering.setFk fun k => { k with ls := { k.ls with ops := [(0,
      { kind := 1, target := 0, segment := 0, unit := 0, stream := 0, first := 0, bytes := [], keep := 0, tries := 0, bus := 0
        recs := [], cmd := 0 })] } }
    let held := { ready with ao := { ready.ao with phase := .held } }
    entering.quiet = true ∧ entering.fk.ls.ops = [] ∧ busy.ao.nandWaitOver = false ∧ busy.fk.ls.ops ≠ [] ∧
    held.pins.coldN = true ∧ held.pins.warmN = true ∧ held.pins.pwrok = true ∧ held.pins.vddFk = true ∧
    held.ao.straps.mem ≠ 0 ∧ held.rb SPR_SELFTEST 30 = false ∧ (regs held [(SPR_SELFTEST, 0x80000000)]).rb SPR_SELFTEST 31 = true := by
  decide +kernel

/-- An access of each failing case, at the first and the last register of the island and of the units. -/
theorem wit_failed_accesses :
    16 ≤ GLB_STATUS ∧ onAo GLB_STATUS = true ∧ Block.reset.pins.coldN = false ∧ onAo SYNC_POOL = false ∧ onFk SYNC_POOL = true ∧
    onFk 0xFFFFC = true ∧ isHi (CR_BASE_LO 15 + 4) = true ∧ onAo (CR_BASE_LO 15 + 4) = false ∧ onFk (CR_BASE_LO 15 + 4) = true ∧
    ready.unitInReset SYNC_POOL = false ∧ Block.reset.pins.hclkOn = true := by decide +kernel

/-- Each register pair, and each plain register of the statements, answers while the block is ready. -/
theorem wit_port :
    (∀ o ∈ [0x8008, XL_INV_VA_LO, LS_MEM_BASE_LO, CR_BASE_LO 0, CR_BASE_LO 15, FL_RXP 0 0x04, FL_RXP 15 0x10, DK_DESC_LO 0,
        DK_DESC_LO 63, DK_INFO_LO 63], ready.portCase o = .go ∧ ready.portCase (o + 4) = .go) ∧
    (∀ o ∈ [INT_TOP_EN, GLB_PSTORE_BANK, PACE_FLOOR, SYNC_SEL, HANG_CFG, XL_CTX_SEL, GE_CFG, CAM_TBL_SEL, LS_SEG_RESERVE,
        FL_ACK_TO, INT_EN 8, SKD_CFG 15, TLY_USER_EN 7, FL_ALLOW 15, 0xC0000, 0xFFFFC, SYNC_VAL, SYNC_ADD, SYNC_CFG, SYNC_POOL,
        TLY_CFG 255, TLY_CTRL, TLY_WIN, XL_INV, XL_CTX_CFG 63, XL_FQ_HEAD, XL_FQ_SIZE, XL_FQ_ACT, CR_HEAD 15, CR_SIZE 15,
        INT_CAUSE 8, INT_TEST 8, SQ_CFG 63, SQ_DOORBELL 63, SQ_INVALIDATE 63, CAM_PORT_CFG 11, CAM_CTRL 47, BOOM_CFG 7,
        BOOM_WARN 7, BOOM_CRIT 7, BOOM_FREE 7, LDG_SEL, FL_CFG, FL_RXP 15 0x18, RST_CTRL, GLB_BYP, PACE_CTRL,
        CAM_TRIG_CTRL 11], ready.portCase o = .go) ∧ ready.bus.held = [] := by decide +kernel

/-! Witnesses: timebase, triggers, bypass, pace, memory port, dumps, counters, tally. -/

/-- A trigger that is due, one that is over, one that a write turns on; samples that step and that do not. -/
theorem wit_triggers :
    let b := (regs ready [(CAM_TRIG_CTRL 0, 1), (CAM_TRIG_PERIOD 0, 100), (CAM_TRIG_PERIOD 1, 100), (GLB_TB_NOW_LO, 500)]).setFk
      fun k => { k with trig := [(0, { level := false, target := some 500, width := 0, armed := false }),
                                 (11, { level := true, target := some 400, width := 100, armed := true })] }
    b.live = true ∧ b.ao.straps.tb = true ∧ b.fk.cam = [] ∧ b.trigDue 0 = true ∧ b.trigOver 11 = true ∧ b.now = 500 ∧
    (b.trig 1).level = false ∧ b.trigOn 1 = false ∧ b.trigPeriod 1 ≠ 0 := by decide +kernel

theorem wit_bypass_and_pace :
    let b := regs ready [(PACE 0, 0x0FFF0000)]
    let forced := regs ready [(GLB_BYP, 0xC0000000)]
    let closed := regs ready [(GLB_BYP, 0x80000000)]
    let pace := { regs ready [(PACE_CTRL, 0x80010000)] with ao := { (regs ready [(PACE_CTRL, 0x80010000)]).ao with paceSkip := false } }
    forced.bypassCause ≠ 0 ∧ forced.pins.fclkOn = true ∧ closed.pins.pwrok = true ∧ closed.ao.straps.fe = true ∧ closed.ao.straps.fw = true ∧
    closed.movementReset = false ∧ closed.rb GLB_BYP 30 = false ∧ closed.rb GLB_BYP 31 = true ∧ closed.bypassCause = 0 ∧
    pace.rb PACE_CTRL 31 = true ∧ pace.rb PACE_CTRL 29 = false ∧ pace.ao.paceSkip = false ∧ pace.islandOff 0 = false ∧
    pace.islandOff 247 = false ∧ b.rb (PACE 0) 30 = false := by decide +kernel

/-- A walk's read that is granted; a landing write that is owed and stands behind a skidder's that waits, and one that is a
retry; responses to a gather command's read and to its write. -/
theorem wit_memory_requests :
    let r : MemReq := { line := 5, write := false, agent := .walk, data := 0, be := 0 }
    let w : MemReq := { line := 6, write := true, agent := .landing 0, data := 0, be := 1 }
    let first : MemReq := { w with line := 7, agent := .skidder 3 8 }
    let b := ready.setFk fun k => { k with owed := [{ req := w, serial := 1 }, { req := first, serial := 2 }], waits := [first] }
    let again := ready.setFk fun k => { k with retries := [{ req := w, serial := 1 }] }
    b.live = true ∧ b.mayRequest r = true ∧ b.grants r = true ∧ b.mayRequest w = true ∧ b.grants w = false ∧
    b.grants first = true ∧ again.mayRequest w = true ∧ again.retryOf w = some { req := w, serial := 1 } ∧
    b.owedFor first = some { req := first, serial := 2 } := by decide +kernel

theorem wit_free_tags : ready.freeTags false ≠ [] ∧ ready.freeTags true ≠ [] := by decide +kernel

theorem wit_memory_responses :
    let r : MemReq := { line := 5, write := false, agent := .gather 8, data := 0, be := 0 }
    let w : MemReq := { r with line := 6, write := true, be := BitVec.allOnes 64 }
    let s : MemReq := { r with line := 9, agent := .skidder 3 7 }
    let b := (withCmds [(7, cmd (.skidder 3) .skid), (8, cmd .gather .gather)]).setFk fun k => { k with
      rdTags := [(0, { req := r, chan := 0, retry := false, serial := 0 }), (4095, { req := s, chan := 0, retry := true, serial := 2 })]
      wrTags := [(1, { req := w, chan := 0, retry := false, serial := 1 })] }
    b.live = true ∧ (SMap.find b.fk.rdTags 4095).isSome ∧ SMap.find b.fk.rdTags 1 = none ∧ SMap.find b.fk.wrTags 0 = none ∧
    (b.findCmd 8).any (fun c => c.unit == .gather) = true ∧ b.bufferUsed 3 7 + (cmd (.skidder 3) .skid).lines.length < 256 := by
  decide +kernel

/-- A TAP instruction, an observer update with and without a clear and a dump, a dump in progress. -/
theorem wit_dumps :
    let b := { ready with ao := { ready.ao with
      tap := { ready.ao.tap with ir := 0x40 }, dumpRun := some { trigger := 2, time := 0, noAns := [], heads := [] } } }
    b.pins.vddAo = true ∧ b.pins.coldN = true ∧ b.ao.tap.ir = 0x40 ∧ (0x90000000 : Word).getLsbD 28 = true ∧
    (0x10000000 : Word).getLsbD 31 = false ∧ (0x80000000 : Word).getLsbD 28 = false ∧ b.ao.dumpRun.isSome ∧
    ready.rb DMP_STAT 31 = false ∧ ready.rb DMP_STAT 30 = false := by decide +kernel

/-- A count that is off, one that is on; words of TLY_CFG that Table 16.1 allows and refuses; a window in progress. -/
theorem wit_tally :
    tallyCfgOk 255 0x80000031 = true ∧ tallyCfgOk 0 0x800000FF = false ∧ ready.rb (TLY_CFG 0) 31 = false ∧
    (regs ready [(TLY_CFG 255, 0x80000031)]).rb (TLY_CFG 255) 31 = true ∧ (0x40000000 : Word).getLsbD 30 = true ∧
    (0x20000000 : Word).getLsbD 29 = true ∧ (regs ready [(TLY_WIN, 0x800003E8)]).rb TLY_WIN 31 = true ∧
    (regs ready [(TLY_WIN, 0x800003E8)]).rb TLY_WIN 30 = false := by decide +kernel

/-! Witnesses: contexts, suspension, jobs, rings, queues. -/

/-- A context off, active and in teardown with nothing left; an invalidation in progress whose accesses are over. -/
theorem wit_contexts :
    let active := regs ready [(XL_CTX_CFG 63, 0x90000000)]
    let closing := regs ready [(XL_CTX_CFG 0, 0x20000000)]
    ready.rf (XL_CTX_CFG 0) 28 2 = 0 ∧ active.rf (XL_CTX_CFG 63) 28 2 = 1 ∧ closing.rf (XL_CTX_CFG 0) 28 2 = 2 ∧
    closing.ctxQuiet 0 = true ∧ closing.jobsIn 0 = [] ∧ closing.tornDown 0 = true ∧ closing.live = true ∧
    ready.fk.xl.inval = none ∧ (0x80000000 : Word).getLsbD 31 = true ∧ (0x100 : Word).getLsbD 8 = true ∧
    ready.fk.xl.fids = [] ∧ ready.fk.xl.records = [] := by decide +kernel

/-- What a suspended command waits for. -/
def need : Need :=
  { va := 0x50000, write := false, ctx := 0, agent := 0, unit := 3, sq := 0, tag := 0, cursor := 0, total := 8 }

def susp : Susp := { who := .cmd 7, need := need, level := 0, kind := 0, seq := 1 }

/-- A walk that faults and one that yields a leaf; FIDs free and none free; a record and a held transfer that wait. -/
theorem wit_suspension :
    let c := { cmd (.skidder 3) .skid with need := some need }
    let b := withCmds [(7, c)]
    let tables := (b.setXl fun x => { x with roots := [(0, 0x1000001)] }).xwrite 0x1000000 (leBytes 8 0x2000001)
    let mapped := tables.xwrite 0x2000028 (leBytes 8 0x3000007)
    let full := b.setXl fun x => { x with fids := (List.range 256).map fun i => (i, susp) }
    let held := b.setXl fun x => { x with holding := [susp], records := [5], fids := [(255, susp)] }
    let ring := regs held [(XL_FQ_SIZE, 16), (XL_FQ_TAIL, 15), (XL_FQ_HEAD, 1)]
    b.findCmd 7 = some c ∧ dProgEn c.ta = false ∧ dProgEn c.tb = false ∧ dProgEn c.tc = false ∧
    b.walk 0 0x50000 false = .fault 0 0 ∧ mapped.walk 0 0x50000 false = .leaf 0x3000007 false ∧ b.freeFids ≠ [] ∧
    full.freeFids = [] ∧ held.fk.xl.holding = [susp] ∧ ring.fk.xl.records = [5] ∧ ring.fqSize ≠ 0 ∧
    (ring.fqTail + 1) % ring.fqSize ≠ ring.fqHead ∧ ring.fqTail < ring.fqSize ∧ ring.portCase XL_FQ_ACT = .go ∧
    SMap.find held.fk.xl.fids (bits (0x400001FF : Word) 0 8) = some susp ∧ susp.seq.toNat = bits (0x400001FF : Word) 8 8 ∧
    bits (0x400001FF : Word) 30 2 = 1 ∧ bits (0x800001FF : Word) 30 2 = 2 ∧ SMap.find held.fk.xl.fids 0 = none := by
  decide +kernel

/-- With no write owed every transfer may suspend; one that still owes a write of its command may not. -/
theorem wit_suspension_ready : let b := withCmds [(7, { cmd (.skidder 3) .skid with need := some need })]
    ∀ v, b.needOf v ≠ none → b.suspReady v = true := by
  intro b v _
  cases v <;> rfl

theorem wit_suspension_waits :
    let w : MemReq := { write := true, line := 1024, agent := .skidder 3 7, data := 0, be := 1 }
    ((withCmds [(7, { cmd (.skidder 3) .skid with need := some need })]).setFk fun k => { k with
      owed := [{ req := w, serial := 0 }] }).cmdAcked 7 = false := by decide +kernel

/-- The header of `header` with its magic number and this block's release, as a program in the store. -/
def program : BitVec 512 := BitVec.ofNat 512 (header.toNat + 0x50484B46 + 3 * 2 ^ 0x30)

/-- A queue that runs, on a ring of 16, with one cached entry. -/
def queued (entry : BitVec 512) : Block :=
  (regs ready [(SQ_CFG 0, 0x90000000), (SQ_SIZE 0, 16), (CR_SIZE 0, 16), (XL_CTX_CFG 0, 0x90000000)]).setFk fun k => { k with
    pstore := (leBytes 64 program.toNat).zipIdx.map fun e => (e.2, e.1)
    queues := [(0, { cache := [{ idx := 0, bits := entry }], scanning := false, again := false, bad := none, started := [] })] }

/-- Entries of each opcode. -/
def nopEntry : BitVec 512 := BitVec.ofNat 512 (2 ^ 63)
def runEntry : BitVec 512 := BitVec.ofNat 512 (2 ^ 63 + 2 ^ 16)
def fenceEntry : BitVec 512 := BitVec.ofNat 512 (2 ^ 63 + 2 * 2 ^ 16)

/-- The queue's head entry is a NOP, a FENCE that may start; and one whose ring has no credit. -/
theorem wit_nop_entry :
    (queued nopEntry).headReady 0 = some { idx := 0, bits := nopEntry } ∧ (queued nopEntry).startReason 0 nopEntry = 0 ∧
    (queued nopEntry).startsNext 0 = true ∧ entOpcode nopEntry = 0 := by decide +kernel

theorem wit_fence_entry :
    (queued fenceEntry).headReady 0 = some { idx := 0, bits := fenceEntry } ∧ (queued fenceEntry).startReason 0 fenceEntry = 0 ∧
    (queued fenceEntry).startsNext 0 = true ∧ entOpcode fenceEntry = 2 := by decide +kernel

theorem wit_no_credit : (regs (queued nopEntry) [(CR_SIZE 0, 0)]).startsNext 0 = false := by decide +kernel

/-- The queue's head entry is a RUN that may start. -/
theorem wit_run_entry :
    (queued runEntry).headReady 0 = some { idx := 0, bits := runEntry } ∧ (queued runEntry).startReason 0 runEntry = 0 ∧
    (queued runEntry).startsNext 0 = true ∧ entOpcode runEntry = 1 := by decide +kernel

/-- A job with threads left to place, and one that is done, ended and not. -/
theorem wit_jobs :
    let early := { job with nextThread := 3 }
    let b := running.setFk fun k => { k with jobs := [(0, early)] }
    let idle := running.setFk fun k => { k with threads := [] }
    b.findJob 0 = some early ∧ early.ended = none ∧ early.nextThread < hdrThreads early.header ∧ b.freeSlots ≠ [] ∧
    idle.jobDone 0 job = true ∧ entNocomp job.entry = false ∧ job.tst.find? (fun e => e.2.count ≠ 0) = none ∧
    idle.jobDone 0 { job with ended := some 0x10 } = true := by decide +kernel

/-- A completion that waits with a credit, and one that a free credit serves, at the last place of a ring. -/
def completion : Completion :=
  { job := 0, sq := 0, status := 0, idx := 0, placed := 0, voided := 0, errors := 0, errThread := 0x1FFF, lastErr := 0
    irq := false, sig := none, credit := false }

theorem wit_rings :
    let b := (regs ready [(CR_SIZE 15, 16), (CR_TAIL 15, 15), (CR_IRQ 15, 0x80010005)]).setFk fun k => { k with
      rings := [(15, { pass := true, inUse := 0, since := 1, pend := [completion] })] }
    b.live = true ∧ 16 ≤ b.crEntries 15 ∧ (b.ring 15).pend = [completion] ∧ 0 < b.crFree 15 ∧ b.rb (CR_IRQ 15) 31 = true ∧
    b.rf (CR_IRQ 15) 0 16 ≠ 0 ∧ 0 < (b.ring 15).since ∧ (b.ring 0).inUse = 0 := by decide +kernel

/-- A queue in each state, with and without what its write needs; a scan; a malformed head entry; a queue that is drained. -/
theorem wit_queues :
    let q := queued nopEntry
    let off := regs q [(SQ_CFG 0, 0)]
    let stopped := regs q [(SQ_CFG 0, 0xB0000000)]
    let draining := regs q [(SQ_CFG 0, 0x20000000)]
    let scanning := q.setFk fun k => { k with queues := [(0, { cache := [], scanning := true, again := false, bad := none, started := [] })] }
    let bad := q.setFk fun k => { k with queues := [(0,
      { cache := [{ idx := 0, bits := nopEntry }], scanning := false, again := false, bad := some (0, 1, 0), started := [] })] }
    q.sqState 0 = 1 ∧ off.sqState 0 = 0 ∧ stopped.sqState 0 = 3 ∧ draining.sqState 0 = 2 ∧ off.sqEntries 0 ≠ 0 ∧
    16 ≤ off.crEntries 0 ∧ off.crEntries 1 < 16 ∧ scanning.scans 0 = true ∧ scanning.sqEntries 0 ≠ 0 ∧
    (bad.q 0).bad = some (0, 1, 0) ∧ bad.headBad 0 = true ∧ draining.sqRunning 0 = 0 ∧ (draining.q 0).started = [] ∧
    (∀ e ∈ draining.fk.rings, ∀ c ∈ e.2.pend, c.sq ≠ 0) := by decide +kernel

/-! Witnesses: camera. -/

/-- A frame of stream 0 with the reset configuration, one line received. -/
def frame : Frame :=
  { id := 5, fno := 0, wc := 1, stamp := 0, cfg := ready.shadow 0, table := []
    lines := [{ row := 0, bytes := [], arrived := 0, done := false, onLane := none, again := none }], received := 1, corrupt := false
    ended := false, admitted := false, complete := false, taken := false, lost := false
    loop := { gainR := 0, gainB := 0, dgain := 0, exp := 0, skip := 0, seeds := true }, seeded := false, bufs := [], written := 0, record := [] }

/-- Port 0 and its stream 0 are enabled, boom 6 has 5 buffers in every stand, and the stream has these frames. -/
def camera (fs : List Frame) : Block :=
  (regs ready [(CAM_PORT_CFG 0, 0x80000000), (CAM_CTRL 0, 0x80000000), (BOOM_CFG 6, 0x80050000), (BOOM_CFG 2, 0x00010000)]).setFk fun k =>
    { k with nextId := 10, cam := [(0, { (ready.str 0) with entries := fs.map .frame, active := ready.shadow 0 })] }

/-- Streams that may be enabled and that are refused; a disable and a COMMIT; a table byte that may and may not be written. -/
theorem wit_camera_writes :
    let b := camera []
    let off := regs b [(CAM_CTRL 0, 0)]
    ready.strEn 0 = false ∧ ready.rb (CAM_CTRL 0) 30 = false ∧ off.enableRefuse 0 = 0 ∧ ready.enableRefuse 47 = 3 ∧
    b.strEn 0 = true ∧ (ready.shadow 0).valid = true ∧ (regs ready [(CAM_STR 0 0x08, 0)]).strEn 0 = false ∧
    ((regs ready [(CAM_STR 0 0x08, 0)]).shadow 0).valid = false ∧ isTableWindow 0x1E000 = true ∧ isTableWindow 0x1E3FC = true ∧
    ready.tableKey 0x1E000 = some 0 ∧ (regs ready [(CAM_TBL_SEL, 48)]).tableKey 0x1E000 = none ∧ b.tableLocked = true ∧
    ready.tableLocked = false ∧ b.rb (CAM_PORT_CFG 0) 31 = true ∧ ready.camPresent 11 = true := by decide +kernel

/-- A port with a bound and an unbound channel, a frame in progress, and lines that fit and that do not. -/
theorem wit_camera_packets :
    let b := camera [frame]
    b.live = true ∧ b.camUp 0 = true ∧ b.camStream 0 1 = none ∧ b.camStream 0 0 = some 0 ∧ (b.str 0).current = some frame ∧
    b.frameOf 0 5 = some frame ∧ (∀ f ∈ (b.str 0).frames, f.id < b.fk.nextId) ∧ isImageDt frame.cfg.dt = true ∧
    frame.received < frame.cfg.inH ∧ b.lineUse 0 + 100 ≤ 2 ^ 18 ∧ 2 ^ 18 < b.lineUse 0 + 2 ^ 18 + 1 ∧
    isImageDt 0x2A = true ∧ 0x2A ≠ frame.cfg.dt ∧ 0x13 ≤ 0x30 ∧ 0x04 ≠ frame.cfg.dt := by decide +kernel

/-- A frame that may be admitted and one that may not; a lane with and without a line; the last line of a frame. -/
theorem wit_front_end :
    let b := camera [frame]
    let worked := { frame with lines := [{ row := 0, bytes := [], arrived := 0, done := false, onLane := some 3, again := none }] }
    let w := camera [worked]
    (b.str 0).waiting = some frame ∧ b.strEn 0 = true ∧ (b.str 0).held < 4 ∧ b.boomAtLevel (BOOM_HOLD frame.cfg.pool) frame.cfg.pool = false ∧
    frame.cfg.buffers ≤ (b.boomFreeAt frame.cfg.pool (b.framePlace frame.cfg.pool)).length ∧
    (regs b [(CAM_CTRL 0, 0)]).strEn 0 = false ∧ b.laneIn 0 = true ∧ b.laneIn 8 = false ∧ b.lineOn 0 = none ∧
    (w.lineOn 3).isSome ∧ SMap.get noneIn w.fk.fe.charged 3 = false ∧ worked.ended = false ∧ frame.admitted = false ∧
    (regs (camera [frame]) [(CAM_STR 0 0x1C, 1), (GLB_TB_NOW_LO, 1001)]).isStale 0 frame = true := by decide +kernel

/-- A line that a free lane may take. -/
theorem wit_line_pick :
    let g := { frame with admitted := true, ended := true }
    let b := camera [g]
    b.lineOn 0 = none ∧ b.readyLines 0 (some 0) ≠ [] ∧ b.fk.fe.nextPort < 12 ∧
    (∀ p, p < 12 → ∀ x ∈ b.readyLines p (some 0), x.pixels ≤ 8192 ∧ 64 ≤ b.quantum p) := by decide +kernel

/-! Witnesses: the log store. -/

/-- The anchor of a store of 16 targets of 2,048 blocks of 2,048 pages in two planes. -/
def anchor : Anchor :=
  { clean := true, storeId := 3, seq := 5, geom := 0x12000800, sparePct := 4, stripe := 4, targets := 0xFFFF, ckptSeg := 2
    ckptSeq := 7, jrnSeg := 3, block := 0, page := 1 }

/-- A mounted store with 16 targets online; a segment with an open unit, an operation of each kind, a read. -/
def stored (ls : LogStore → LogStore) : Block :=
  let b := regs running [(LS_STATUS, 0x88000000), (LS_CH 0, 0x8000FF00), (LS_CH 1, 0x8000FF00), (LS_FLUSH, 0x07D0)]
  { b with
    ext := { b.ext with flash := { b.ext.flash with
      formatted := true, geom := 0x12000800, stripe := 4, sparePct := 4, targets := 0xFFFF, storeId := 3, ckptSeq := 7
      anchors := [(0, anchor)], anchorWords := [(0, anchorWord anchor 0)] } } }.setLs ls

def nandOp (kind tries : Nat) : NandOp :=
  { nandOpNew kind 1 with segment := 65546, stream := 2, bytes := [1, 2], keep := 2, tries := tries, cmd := 7 }

/-- Channel 0 trains with one target, which reports the geometry of the store. -/
def scan : NandScan :=
  { ids := [(0, { page := true, commands := true, training := false, dataBytes := 16384, spareBytes := 2048, planes := 2, luns := 1
                  pages := 2048, blocks := 2048, retries := 16 })]
    marks := [], passing := [(0, [64], [0, 127])], unread := [] }

theorem wit_log_commands :
    let is := fun (op : Nat) => stored fun x => { x with command := some op }
    let down := fun (op : Nat) => regs (is op) [(LS_STATUS, 0)]
    (is 1).mounted = true ∧ (down 1).mounted = false ∧ (is 7).ls.result = none ∧ (is 7).ls.command = some 7 ∧
    (is 7).ls.memFail = none ∧ (down 1).ao.straps.nand.getLsbD 0 = true ∧ (down 1).underReset intakeUnit = false ∧
    (scan.passing.find? (fun e => e.1 == 0)) = some (0, [64], [0, 127]) ∧ ((down 1).trainChannels scan).online 0 = true ∧
    (down 1).rf LS_MEM_SIZE 0 16 < ((down 1).flash.asAnchored anchor).memNeed ∧
    ((down 1).flash.asAnchored anchor).memNeed ≤ (regs (down 1) [(LS_MEM_SIZE, 0xFFFF)]).rf LS_MEM_SIZE 0 16 ∧
    (is 2).logQuiet (fun _ => true) = true ∧ (is 2).ls.units = [] ∧ (is 2).ls.ops = [] ∧ 4 ≤ (down 3).rf LS_FMT 0 8 ∧
    (down 3).rf LS_FMT 0 8 ≤ 25 ∧ 1 ≤ (down 3).rf LS_FMT 8 8 ∧ (down 3).rf LS_FMT 8 8 ≤ 64 ∧ (is 4).pins.pfailN = true ∧
    (is 5).lsStream 0 = none ∧ (is 5).undurable (fun r => r.type == 4 || r.type == 5) = false ∧
    (stored fun x => { x with unsaved := [recOf 4 0 0 0] }).undurable (fun r => r.type == 4 || r.type == 5) = true := by
  decide +kernel

theorem wit_log_anchor :
    let b := (regs (stored fun x => { x with command := some 1 }) [(LS_STATUS, 0)]).trainChannels scan
    b.governing [] = some anchor ∧ (ready.trainChannels scan).governing [] = none := by
  intro b
  have he : b.ext = (regs (stored fun x => { x with command := some 1 }) [(LS_STATUS, 0)]).ext := Block.trainChannels_ext _ _
  refine ⟨Block.governing_one b 0 anchor _ ?_ ?_ (anchorWord_valid anchor 0) (by decide +kernel) ?_, by decide +kernel⟩ <;>
    simp only [Block.flash, he] <;> rfl

/-- A log stream whose group takes no more units. -/
def logStream : LogStream := { ring := false, start := 0, endOff := 0, next := 0, groups := [], unit := 0, left := 0 }

theorem wit_log_work :
    let unit : OpenUnit := { stream := 2, segment := 65546, unit := 0, first := 0, bytes := [1], due := true, redo := false }
    let b := stored fun x => { x with
      units := [unit], nextOp := 10, streams := [(2, logStream)]
      ops := [(1, nandOp 1 0), (2, nandOp 2 0), (3, { nandOp 3 1 with bus := 1 }), (4, nandOp 4 0)], journal := 65536
      segs := [(65546, { segNew 65546 with state := 2 }), (131082, { segNew 131082 with state := 1 })] }
    b.live = true ∧ b.pins.vddFk = true ∧ b.mounted = true ∧ b.rf LS_FLUSH 0 16 ≠ 0 ∧ b.pins.pfailN = true ∧
    (b.ls.units.find? fun u => u.stream == 2 && u.due) = some unit ∧ unit.segment ≠ unplaced ∧ b.rb LS_STATUS 27 = true ∧
    b.nandRoom (segTarget unit.segment) = true ∧ SMap.find b.ls.ops 1 = some (nandOp 1 0) ∧ (nandOp 1 0).bus = 0 ∧
    SMap.find b.ls.ops 2 = some (nandOp 2 0) ∧ SMap.find b.ls.ops 4 = some (nandOp 4 0) ∧ (b.lsSeg 65546).state = 2 ∧
    (nandOp 1 0).bytes.length ≤ gmUnit b.flash.geom ∧ (b.lsSeg 131082).state ≠ 2 ∧ (b.lsSeg 65546).dead = false ∧
    (SMap.find b.ls.ops 3).any (fun o => o.bus ≠ 0 && o.target < 64) = true ∧ 65536 ≤ b.ls.journal := by decide +kernel

theorem wit_log_no_failures : ∀ p, SMap.get zeroNat (stored id).ls.blockFails (blockKey 65546 p) = 0 := fun _ => rfl

theorem wit_log_reclaim :
    let segs := [(65546, { segNew 65546 with state := 3, gseq := 9 }), (131082, { segNew 131082 with state := 1 })]
    let b := stored fun x => { x with due := [(65546, 2)], segs := segs }
    let r : Reclaim := { src := 65546, dst := 131082, cause := 2, stage := 1, gseq := 9 }
    let m := stored fun x => { x with segs := segs, reclaim := some r }
    let n := stored fun x => { x with segs := segs, reclaim := some { r with stage := 2 } }
    b.mounted = true ∧ b.ls.due = [(65546, 2)] ∧ b.ls.reclaim = none ∧ (b.lsSeg 65546).state = 3 ∧ b.flash.hasSeg 131082 = true ∧
    (b.candidates (segTarget 131082) [1]).contains 131082 = true ∧ b.serves (segTarget 131082) = true ∧
    b.spent (segTarget 131082) = false ∧ (∀ k ∈ b.groupSegs (b.lsSeg 65546).gseq, segTarget k ≠ segTarget 131082) ∧
    b.journalIdle = true ∧ m.ls.reclaim = some r ∧ r.src ≠ r.dst ∧ (m.lsSeg r.src).gseq = r.gseq ∧ m.segBusy r.src = false ∧
    gmPlanes m.flash.geom ≤ 4 ∧ n.beingRead 65546 = false := by decide +kernel

/-- A LOGRD whose page has been read. -/
theorem wit_log_read :
    let c := { cmd .logStore .logrd with scratch := [0, 0, 0, 0, 0, 0, 1, 65546, 65546, 0, 0, 2] }
    let b := (withCmds [(7, c)]).setLs fun x => { x with ops := [(3, nandOp 3 0)] }
    b.findCmd 7 = some c ∧ b.cmdWaits c = false ∧ ((readRun c).map fun r => r.pieces.length) = some 1 ∧
    (b.ls.ops.find? fun o => o.2.kind == 3 && o.2.cmd == 7) = some (3, nandOp 3 0) := by decide +kernel

/-! Witnesses: booms, ledgers, hangs. -/

theorem wit_booms :
    ready.boomCfgOk 7 0x00010000 = true ∧ ready.boomCfgOk 0 0x80017FFF = false ∧ ready.maint = false ∧ ready.boomInUse 7 = 0 ∧
    ready.boomWaited 7 = false ∧ running.boomInUse 0 ≠ 0 ∧ ready.fk.booms.waiters = [] ∧
    ready.rf (BOOM_WARN 7) 0 18 = 0 ∧ (regs ready [(BOOM_HOLD 0, 5)]).rf (BOOM_HOLD 0) 0 18 = 5 := by decide +kernel

/-- A queue that is blocked on a counter which no one will signal, as a hang. -/
def stuck : Block :=
  (regs running [(SQ_CFG 0, 0x90000000), (SQ_SIZE 0, 16), (CR_SIZE 0, 16), (HANG_CFG, 0x80000000)]).setFk fun k => { k with
    threads := [(0, { thread with hold := .wait 5 9 })] }

/-- Hung and not hung; armed with the picture and not; fired and not. -/
theorem wit_hangs :
    let armed := (regs stuck [(HANG_STAT, 0x400003D4)]).setFk fun k => { k with hangSnap := stuck.picture }
    stuck.live = true ∧ stuck.hungNow = true ∧ ready.hungNow = false ∧ stuck.rb HANG_CFG 31 = true ∧ stuck.rb HANG_STAT 30 = false ∧
    armed.rb HANG_STAT 30 = true ∧ armed.fk.hangSnap = armed.picture ∧ armed.hungNow = true ∧ 980 ≤ armed.rf HANG_STAT 0 16 ∧
    armed.fk.hung = false ∧ (armed.setFk fun k => { k with hung := true }).fk.hung = true ∧ ready.rb LDG_STAT 31 = false ∧
    ready.rb DMP_CTRL 30 = true := by decide +kernel

/-! Witnesses: the flume. -/

/-- Links up, the port enabled as node 1 of a ring whose manager it is, the bypass open; flow 0 of channel 0 is announced. -/
def flow : Flow :=
  { chan := 0, east := true, reserved := true, receivers := [2], multicast := false, consumer := 0, deck := 0, epoch := 0
    opened := true, sent := 3, acked := [(2, 1)], gaps := [], out := List.replicate 256 0, bytes := 256, flush := false
    complete := false, ended := false, infoAt := 0 }

def arriving : RxDeck :=
  { flow := 0x20, port := 3, src := 2, chan := 0, deck := 0, epoch := 0, last := true, taken := 0, written := 0, dropped := false
    detached := false, ended := none, recorded := false, cursor := 0, need := none, fail := none }

def flumed : Block :=
  let up : Link := { Link.reset with trained := true, replay := [(0, { tag := 0, data := 0 })], llc := [0x40] }
  (regs ready [(FL_CFG, 0x80110001), (GLB_BYP, 0), (FL_GRANT 2, 1024), (FL_RXBUF, 0x00400000), (FL_RXP 3 0x00, 0x80000001),
    (FL_RXP 3 0x04, 0x10000), (FL_RXP 3 0x0C, 16), (FL_RXP 3 0x10, 0x20000)]).setFk fun k => { k with
      xl := { k.xl with cache := [leaf 1, leaf 2] }
      flume := { k.flume with east := up, west := up, flows := [(0, flow)], rx := [(3, arriving)] } }

theorem wit_links :
    let b := flumed
    let idle := b.setFlume fun f => { f with east := { f.east with trained := false }, west := { f.west with training := true } }
    let second := b.setFlume fun f => { f with east := { f.east with strikes := 1 } }
    b.live = true ∧ b.linkThere 0 = true ∧ b.linkThere 1 = true ∧ b.bypassed = false ∧ (idle.link 0).training = false ∧
    b.linkUp 0 = true ∧ b.linkUp 1 = true ∧ llcKnown 0xFF = false ∧ (second.link 0).strikes ≠ 0 ∧ (b.link 0).strikes = 0 ∧
    (b.link 0).input = [] ∧ b.flOn = true ∧ 0x10 / 16 = b.flNode ∧ b.flow? (0x10 % 16) = some flow ∧ 2 ∈ flow.receivers ∧
    0x20 / 16 ≠ b.flNode ∧ (b.dirTo (0x20 / 16)).isSome ∧ (idle.link 1).training = true ∧ idle.pins.fclkOn = true := by decide +kernel

theorem wit_flume_port :
    let b := flumed
    let note : Packet := { tag := 0, data := 0 }
    let noted := b.setFlume fun f => { f with notices := [(1, note)] }
    let ending := b.setFlume fun f => { f with aborts := [(0, true, note)], disabling := true }
    let unfitted := { ready with ao := { ready.ao with straps := { ready.ao.straps with fw := false } } }
    b.fk.flume.disabling = false ∧ ready.flOn = false ∧ ready.linkThere 0 = true ∧ ready.linkThere 1 = true ∧
    unfitted.linkThere 1 = false ∧ b.flowReady 0 0 = true ∧ b.turnOf 0 flow.dir true = true ∧ (b.nextPacket 0 flow).isSome ∧
    0 < flow.inUse ∧ b.freeFlows ≠ [] ∧ (noted.fk.flume.notices.find? fun e => noted.linkFree e.1).isSome ∧
    ending.fk.flume.notices = [] ∧ (ending.fk.flume.aborts.find? fun e =>
      ending.abortReady 0 e && ending.turnOf 0 e.1 e.2.1) = some (0, true, note) := by
  decide +kernel

/-- The record of a deck that has ended: not begun, and at each of its parts. -/
theorem wit_rx_record :
    let e : RxEnd := { status := stDone, len := 0, gap := 0, deck := 0, epoch := 0, info := none }
    (flumed.acked fun a => a == .rxPort 3) = true ∧ flumed.writesOf (.rxPort 3) < flumed.tagCap true (.rxPort 3) ∧
    flumed.fk.flume.rxHeld = [] ∧ (flumed.link 0).input = [] ∧ (flumed.link 1).input = [] ∧
    ∀ k ∈ [(false, 0), (true, 0), (true, 60), (true, 64)],
      let x := { arriving with ended := some e, recorded := k.1, cursor := k.2 }
      let b := flumed.setFlume fun f => { f with rx := [(3, x)] }
      let va := (b.pair (FL_RXP 3 0x10) + 0 % Nat.max 1 (b.rxpNbuf 3) * 64) % 2 ^ 64
      SMap.find b.fk.flume.rx 3 = some x ∧ b.isSusp (.rxPort 3) = false ∧ va + 64 ≤ 2 ^ 48 ∧
      ∀ j, j < 64 → b.xlate (b.rxpCtx 3) (va + j) true = some (0x20000 + j) := by decide +kernel

/-- A deck whose destination lies on the flume and that has no flow yet. -/
theorem wit_flow_acquire :
    let d := { deck with ctrl := 0x82000000, closed := [(0, .placed 0 none)] }
    let b := regs (decked d []) [(FL_CFG, 0x80110001)]
    b.deck? 0 = some d ∧ b.deckRuns 0 d = true ∧ d.target = true ∧ d.flows = [] ∧ b.flOn = true ∧
    (SMap.find d.closed (b.dkHead 0)).isSome = true ∧ max 1 (b.rf (FL_DKD 0) 0 4) ≤ b.freeFlows.length ∧
    ((b.setFlume fun f => { f with flows := (List.range 15).map fun n => (n, flow) }).freeFlows).length < 1 := by decide +kernel

/-- A data packet of flow 0x20 that joins its deck; one of a discarded and of a detached deck; one that passes. -/
def dataPacket : Packet := { tag := BitVec.ofNat 12 (0x20 + 2 ^ 8), data := 0 }

theorem wit_packets :
    let b := flumed
    let passing : Packet := { tag := 0x130, data := 0 }
    let dropped := b.setFlume fun f => { f with rx := [(3, { arriving with dropped := true })] }
    let detached := b.setFlume fun f => { f with rx := [(3, { arriving with dropped := true, detached := true })] }
    let full := b.setFlume fun f => { f with east := { f.east with credits := 0 }, west := { f.west with credits := 0 } }
    (b.link 0).input = [] ∧ (b.link 1).input = [] ∧ b.linkUp 0 = true ∧ b.flOn = true ∧ dataPacket.isCtl = false ∧
    dataPacket.flow = 0x20 ∧ b.rxDeck? 0x20 = some arriving ∧ dropped.rxDeck? 0x20 = some { arriving with dropped := true } ∧
    detached.rxDeck? 0x20 = some { arriving with dropped := true, detached := true } ∧ b.rxRoom (0x20 / 16) = true ∧
    (regs b [(FL_GRANT 2, 0)]).rxRoom 2 = false ∧ b.fk.flume.stopped = false ∧ b.rxDeck? 0x30 = none ∧ b.flNode = 1 ∧
    b.flMgr = 1 ∧ b.forMe 0 passing = false ∧ passing.isCtl = false ∧ b.passesOn 0 passing = true ∧ b.linkFree 1 = true ∧
    b.noticeWaits 1 = false ∧ (∀ r, b.ownReady 0 1 r = false) ∧ full.linkFree 1 = false := by decide +kernel

theorem wit_data_packet :
    let b := flumed
    let n := dataPacket.payload
    SMap.find b.fk.flume.rx 3 = some arriving ∧ b.isSusp (.rxPort 3) = false ∧ b.fk.flume.rxHeld = [] ∧ b.fk.flume.opens = [] ∧
    b.fk.flume.rx = [(3, arriving)] ∧ b.rxBase arriving + arriving.taken + n ≤ 2 ^ 48 ∧ 0 < n ∧
    b.writesOf (.rxPort 3) + 256 ≤ b.tagCap true (.rxPort 3) ∧
    ∀ i, i < n → b.xlate (b.rxpCtx 3) (b.rxBase arriving + arriving.taken + i) true = some (0x10000 + i) := by decide +kernel

theorem wit_open_packets :
    let first := ctlPacket 2 1 1 0x30 true 0 2 0 0 0
    let far := ctlPacket 2 1 5 0x30 false 0 0 2 0 0
    first.names flumed.flNode = true ∧ flumed.rxDeck? first.about = none ∧ flumed.forMe 0 far = false ∧ far.crcOk = true := by
  decide +kernel

theorem wit_control_packets :
    let about := fun (k : Nat) (flow : Nat) => ctlPacket 2 k 1 flow true 0 0 2 0 0
    ∀ k ∈ [1, 2, 3, 4, 5, 6], (about k 0x20).isCtl = true ∧ (about k 0x20).kind = k ∧ (about k 0x20).about = 0x20 ∧
      (about k 0x20).crcOk = true ∧ ({ about k 0x20 with data := (about k 0x20).data ^^^ 1 }).crcOk = false := by decide +kernel

/-! Witnesses: faults and resets. -/

def fault (unit check : Nat) (lasting corrected : Bool) (m : Nat) : FaultInfo :=
  { unit := unit, check := check, lasting := lasting, macroNo := m, row := 0, corrected := corrected, eighth := false, cmds := [] }

/-- Faults of SRAM macros at both ends, of units of every class, with and without a spare. -/
theorem wit_faults :
    let used := { ready with ao := { ready.ao with repairs := [(0, 4)] } }
    ready.live = true ∧ (∀ m ∈ [0, 191, 216, 263, 279], ready.macroInReset m = false ∧ SMap.get noneIn ready.ao.fenced m = false ∧
      (192 ≤ m ∨ (ready.macroStand m).isSome = true)) ∧ (∀ x ∈ ready.macroStand 0, ready.substituting x = false) ∧
    SMap.get zeroNat ready.ao.repairs 0 < 4 ∧ 4 ≤ SMap.get zeroNat used.ao.repairs 0 ∧
    (∀ u ∈ [0x0000, 0x1000, 0x2000, 0x201F, 0x3000, 0x303F, 0x4000, 0x4FFF, 0x6000, 0x6010], ready.canFail u = true) ∧
    ready.spareFree = true ∧ ready.donorFree = true ∧ (regs ready [(SPR_STAND_MAP, 0x86543210)]).canFail 0x9000 = true := by
  decide +kernel

/-- A reset request of each domain that is carried out, one that names no such unit, one while another is in progress. -/
theorem wit_resets :
    let busy := { ready with ao := { ready.ao with rst := [{ domain := 1, unit := 0x4000, subst := false, lastingFault := false }] } }
    ready.portCase RST_CTRL = .go ∧ ready.rstBusy = false ∧ busy.rstBusy = true ∧
    (∀ e ∈ [(1, 0x4FFF), (2, 0x2000), (3, 0x1007), (4, 0x8001), (5, 0xF000)], ready.rstOk e.1 e.2 = true) ∧
    ready.rstOk 1 0x5000 = false ∧ ready.rstOk 0 0x4000 = false ∧
    (busy.ao.rst.find? (busy.resetOver 0)).isSome ∧ domainHas 0x4000 (0x4000 + 0) = true := by decide +kernel

/-! The well-formedness check refuses an ill-formed operand of each kind, and takes the last well-formed one. -/

theorem smoke_refused :
    (Instr.add 4096 (rf 0 0 0 0 0)).wf = false ∧ (Instr.camPortCfgWrite 12 0).wf = false ∧ (Instr.camFrameStart 0 16 0).wf = false ∧
    (Instr.camFrameAdmit 48).wf = false ∧ (Instr.lsFlushTimeout 32).wf = false ∧ (Instr.xlCtxEnable 64 0).wf = false ∧
    (Instr.deckOpen 64).wf = false ∧ (Instr.triggerRise 12).wf = false ∧ (Instr.boomFreeRead 8).wf = false ∧
    (Instr.dumpStart 3).wf = false ∧ (Instr.obsPortTimeout 126).wf = false ∧ (Instr.sqDoorbell 64 0).wf = false ∧
    (Instr.crIrqTimer 16).wf = false ∧ (Instr.flowAckTimeout 15).wf = false ∧ (Instr.flumePacketSend 16 0).wf = false ∧
    (Instr.intTest 9 0).wf = false ∧ (Instr.ledgerBreach 171).wf = false ∧ (Instr.tlyCfgWrite 256 0).wf = false ∧
    (Instr.linkTrain 2).wf = false ∧ (Instr.feLinePick 9).wf = false ∧ (Instr.faultRecordWrite 4).wf = false ∧
    (Instr.memWriteAck 4 0 0).wf = false ∧ (Instr.llcLinkAck 0 256).wf = false ∧ (Instr.registerWrite 2 0).wf = false ∧
    (Instr.memRequestTransfer { write := false, line := 2 ^ 46, agent := .walk, data := 0, be := 0 }).wf = false ∧
    (Instr.mmaI8 (.issue 4096 form)).wf = false := by decide +kernel

theorem smoke_taken :
    (Instr.add 4095 (rf 0 0 0 0 0)).wf = true ∧ (Instr.camPortCfgWrite 11 0).wf = true ∧ (Instr.camFrameStart 11 15 0).wf = true ∧
    (Instr.camFrameAdmit 47).wf = true ∧ (Instr.lsFlushTimeout 31).wf = true ∧ (Instr.xlCtxEnable 63 0).wf = true ∧
    (Instr.deckOpen 63).wf = true ∧ (Instr.triggerRise 11).wf = true ∧ (Instr.boomFreeRead 7).wf = true ∧
    (Instr.dumpStart 4).wf = true ∧ (Instr.obsPortTimeout 125).wf = true ∧ (Instr.ledgerBreach 170).wf = true ∧
    (Instr.registerWrite 0xFFFFC 0).wf = true ∧ (Instr.mmaI8 (.work 7)).wf = true := by
  decide +kernel

/-! Values that the spec's tables and examples give. -/

/-- The block after a command. -/
def after (i : Instr) (b : Block) : Block :=
  match exec i (on b) with
  | .next s => s.blk
  | _ => b

/-- Scalar k of thread 0. -/
def sOf (b : Block) (k : BitVec 5) : Option Dword := (b.findThread 0).map (·.sc k)

/-- Table 5.4: ADD wraps, and a write to s0 is discarded. -/
theorem test_add : sOf (after (.add 0 (rf 5 1 1 0 0)) running) 5 = some 128 ∧
    sOf (after (.add 0 (rf 0 1 1 0 0)) running) 0 = some 0 := by decide +kernel

/-- Table 5.4: the high half of a signed product. -/
theorem test_mulhs : (sOf (after (.mulhs 0 (rf 5 6 1 0 0))
    (running.setThread 0 { thread with s := [(1, 64), (6, BitVec.allOnes 64)] })) 5) = some (BitVec.allOnes 64) := by decide +kernel

/-- R137: LI with H = 0 sign-extends. -/
theorem test_li : sOf (after (.li 0 { d := 5, h := 0, lo := 0, ext := 0x80000000 }) running) 5 = some 0xFFFFFFFF80000000 := by
  decide +kernel

/-- Example 5.1: the words of the accumulation loop spell the instructions beside them (Table 5.2). -/
theorem test_example_words :
    decodeInstr 9 0x788A0080 0 = some (.tbind 9 { d := 4, a := 10, imm := 128 }) ∧
    decodeInstr 9 0x0D290001 0 = some (.addi 9 { d := 9, a := 9, imm := 1 }) ∧
    decodeInstr 9 0x82000009 0 = some (.mmaZero (.issue 9 { form with op := 16, md := 9 })) ∧
    decodeInstr 9 0x80268009 0x00280800 =
      some (.mmaE4m3 (.issue 9 { form with op := 1, ta := 3, tb := 4, md := 9, ctr := 5, inc := 1 })) ∧
    decodeInstr 9 0x786D1000 0 = some (.tadv 9 { d := 3, a := 13, imm := 0 }) ∧
    decodeInstr 9 0x612F5FFB 0 = some (.blt 9 { a := 9, b := 15, off := -5 }) ∧
    decodeInstr 9 0x70000549 0 = some (.wait 9 { sh := 0, cr := 0, ctr := 5, v := 9 }) ∧
    decodeInstr 9 0x04000020 0 = some (.endThread 9 (rf 0 0 0 0 0)) ∧ instrLen 0x80268009 = 8 ∧ instrLen 0x0D290001 = 4 := by
  decide +kernel

/-- Table 5.9: a stored byte is read back, sign-extended by LD.B. -/
theorem test_store_load :
    sOf (after (.ldB 0 { d := 5, a := 1, imm := 0 }) (after (.stB 0 { d := 6, a := 1, imm := 0 })
      (running.setThread 0 { thread with s := [(1, 64), (6, 0x80)] }))) 5 = some 0xFFFFFFFFFFFFFF80 := by decide +kernel

/-- R147: SIGNAL adds 1 where V is 0. -/
theorem test_signal : ((after (.signal 0 { sh := 0, cr := 0, ctr := 0, v := 0 }) running).counter 5).value = 4 := by decide +kernel

/-- R150: BFREE of a buffer that another job holds gives 1 and reason 3; of one that is free, reason 4 (R338). -/
theorem test_bfree :
    let other := running.setFk fun k => { k with booms := { k.booms with held := [(bufKey 0 landPlace 0, .job 9)] } }
    sOf (after (.bfree 0 (rf 5 3 0 0 0)) other) 5 = some 1 ∧ (after (.bfree 0 (rf 5 3 0 0 0)) other).rf BOOM_BADPTR 28 3 = 3 ∧
    (after (.bfree 0 (rf 5 3 0 0 0)) (running.setFk fun k => { k with booms := { k.booms with held := [] } })).rf BOOM_BADPTR 28 3 = 4 := by
  decide +kernel

/-- R39, Table 2.6: cold reset is released with every strap high, and the domain then leaves reset into self-test. -/
theorem test_cold_reset_release :
    let b := after (.coldResetRelease ready.ao.straps) Block.reset
    b.pins.coldN = true ∧ b.ao.straps.cam = 0xFFF ∧ (after .blockDomainResetExit b).ao.phase = .selfTest := by decide +kernel

/-- R195: MMA.ZERO gives the bank to the issuing job. -/
theorem test_mma_zero :
    ((after (.mmaZero (.work 7)) (withCmds [(7, cmd (.engine 0) .mmaZero)])).bank
      (cmd (.engine 0) .mmaZero).bankKey).owner = some 0 := by decide +kernel

/-- R398: a CR_HEAD write that passes the tail is counted. -/
theorem test_cr_head :
    (after (.crHeadWrite 15 1) (regs ready [(CR_SIZE 15, 16)])).rf (CR_STAT 15) 0 16 = 1 := by decide +kernel

/-- The queue is first in, first out. -/
theorem test_step_order :
    (match step { pending := [.pfailAssert, .pfailDeassert], blk := ready } with
      | .next s => s.pending == [Instr.pfailDeassert] && !s.blk.pins.pfailN
      | _ => false) = true := by decide +kernel

/-- No word spells a command, so that placing one leaves the state. -/
theorem test_no_words : decodeTableWord 32 0 = none ∧ (State.reset.withFetchWord 32 0 = State.reset) := ⟨rfl, rfl⟩

end Sys2Proof.Tests
end

section
/-! O45: why the statement about contexts and invalidations fails. A teardown closes the codec sessions of its context, and
what they held serves the waiters of the boom manager. The grant to a thread in BALLOC takes the stand from the thread's
number and the boom from the key of the buffer, and bounds neither: in a state that lists a thread beyond the block's 4,096,
the loan is accounted to a boom that does not exist, whose BOOM_STAT is another register. -/

namespace Sys2Proof.Machine

/-! The shared operations on the way from a teardown to a loan. -/

/-- With one candidate the free choice has one outcome. -/
theorem pick_singleton {α : Type} (b : Block) (x : α) : b.pick [x] = some x := by simp [Block.pick, Nat.mod_one]

/-- The grant of buffer `key` to thread `th`, which holds in BALLOC with destination `d` (R336). -/
def Block.grantBuffer (b : Block) (th : Nat) (t : Thread) (d key : Nat) : Block :=
  ((b.used.boomTake key (.job t.job)).setThread th
    { (t.setSc (BitVec.ofNat 5 d) (BitVec.ofNat 64 (b.bufAddr key))) with hold := .none, pc := t.pc + 4 }).tidyWaiters

theorem grantThread_of_single_candidate (b : Block) {th d size key : Nat} {t : Thread} (ht : b.findThread th = some t)
    (hhold : t.hold = .balloc d size) (hkey : b.allocFrom size (standOf th) = [key]) :
    b.grantThread th = b.grantBuffer th t d key := by
  simp only [Block.grantThread, ht, hhold, hkey, pick_singleton, Block.grantBuffer]

/-- The close of a session without buffers serves the one thread that waits (R282, R336). -/
theorem closeSession_of_single_waiter (b : Block) {n th : Nat} {x : Session} (hx : b.sess n = some x) (hbufs : x.bufs = [])
    (hwait : b.fk.booms.waiters = [.thread th]) :
    b.closeSession n =
      (b.setFk fun k => { k with codec := { k.codec with sessions := SMap.erase k.codec.sessions n } }).grantThread th := by
  simp [Block.closeSession, hx, hbufs, Block.giveBack, Block.serveBooms, Block.each, hwait]

theorem closeCodecOf_of_single_session (b : Block) {c n : Nat} {x : Session}
    (hs : (b.fk.codec.sessions.filter fun e => e.2.ctx == c) = [(n, x)])
    (hr : (b.closeSession n).fk.codec.records = []) : b.closeCodecOf c = b.closeSession n := by
  simp [Block.closeCodecOf, hs, hr, Block.each]

/-- The block with the context's register as step 1 of a teardown leaves it (Table 14.8). -/
def Block.ctxClosing (b : Block) (c : Nat) : Block := (b.wf (XL_CTX_CFG c) 31 1 0).wf (XL_CTX_CFG c) 28 2 2

/-- A context with no queue, job or command leaves its teardown the sessions, the logs and the links. -/
theorem teardown_of_idle (b : Block) {c : Nat} (hq : (b.ctxClosing c).queuesIn c = [])
    (hj : (b.ctxClosing c).jobsIn c = []) (hcmds : (b.ctxClosing c).fk.cmds = []) :
    b.teardown c = (((b.ctxClosing c).closeCodecOf c).unbindLogs c).dropLinksOf c := by
  unfold Block.ctxClosing at *
  unfold Block.teardown
  generalize (b.wf (XL_CTX_CFG c) 31 1 0).wf (XL_CTX_CFG c) 28 2 2 = x at *
  simp [Block.each, hq, hj, hcmds, Block.cutCmds, Block.cmdsOf]

/-- A write of EN = 0 to an active context tears it down (R401). -/
theorem exec_contextTeardown_of_active (s : State) {c : Nat} {data : Word} (hc : c < 64)
    (hport : s.blk.portCase (XL_CTX_CFG c) = .go) (hstate : s.blk.rf (XL_CTX_CFG c) 28 2 = 1)
    (hen : bit data 31 = false) :
    exec (.contextTeardown c data) s = s.upd fun b => (b.teardown c).answer 0 false := by
  have hwrite : s.blk.xlCtxWrite c data = s.blk.teardown c := by simp [Block.xlCtxWrite, hstate, hen]
  change s.upd _ = _
  simp [upd_eq, Block.portWrite, hc, hport, hwrite]

/-- What a command is said to end with holds of the block that its meaning gives. -/
theorem holds_of_ends {i : Instr} {s : State} {f : Block → Block} {P : Block → Prop} (h : Ends i s P)
    (hexec : exec i s = s.upd f) : P (settle (f s.blk)) := by
  obtain ⟨u, hu, -, hP⟩ := h
  rw [hexec, upd_next] at hu
  subst hu
  exact hP

/-! The counterexample. -/

namespace StrayWaiter

/-- A thread number whose stand, 8,192, makes the key of buffer 0 of boom 0 that of buffer 0 of boom 512 in stand 0. -/
def strayNo : Nat := 512 * 8192

/-- A thread that waits for a buffer of 256 bytes. -/
def waiting : Thread :=
  { job := 0, jidx := 0, s := [], v := [], p := [], t := [], pc := 0, ep := 0, hold := .balloc 0 256, issue := none }

/-- A session of context 7 that holds no buffer. -/
def session : Session :=
  { cfg := 0, ctx := 7, home := 0xF, pool := [], bufs := [], decoded := 0, sinceIdr := 0, needIdr := true, firstGop := true
    lastQpInit := none, lastIdr := none, lastP := none, kept := 0, slots := [], begun := false, skipRasl := false }

/-- A block that is ready, with context 7 active. Boom 0 has one buffer in every stand. The registers of boom 512 are those
of contexts: its CFG is XL_CTX_CFG[0], which gives it one buffer in every stand, its WARN is XL_CTX_CFG[1], here 7, and its
STAT is XL_CTX_CFG[7]. -/
def block : Block :=
  { Block.reset with
    pins := { Block.reset.pins with coldN := true }
    ao := { Ao.reset with phase := .ready }
    fk := { Fk.reset with
      regs := [(BOOM_CFG 0, 0x80010000), (XL_CTX_CFG 0, 0x80010000), (XL_CTX_CFG 1, 7), (XL_CTX_CFG 7, 0x90000000)]
      threads := [(strayNo, waiting)]
      booms := { held := [], waiters := [.thread strayNo] }
      codec := { sessions := [(0, session)], records := [], firstRec := [] } } }

/-- The block as the teardown of context 7 has it once it has closed the session and before the waiter is served. -/
def closed : Block :=
  (block.ctxClosing 7).setFk fun k => { k with codec := { k.codec with sessions := SMap.erase k.codec.sessions 0 } }

/-- The close of the session lends the stray thread a buffer of boom 512. -/
theorem closeSession_eq : (block.ctxClosing 7).closeSession 0 = closed.grantBuffer strayNo waiting 0 (bufKey 512 0 0) := by
  have hgrant : closed.grantThread strayNo = closed.grantBuffer strayNo waiting 0 (bufKey 512 0 0) :=
    grantThread_of_single_candidate closed (size := 256) (by decide +kernel) rfl (by decide +kernel)
  rw [← hgrant]
  exact closeSession_of_single_waiter _ (x := session) (by decide +kernel) rfl (by decide +kernel)

/-- The whole teardown: what follows the loan finds no log, deck channel or receive port of the context. -/
theorem teardown_eq : block.teardown 7 =
    ((closed.grantBuffer strayNo waiting 0 (bufKey 512 0 0)).unbindLogs 7).dropLinksOf 7 := by
  have hcodec : (block.ctxClosing 7).closeCodecOf 7 = (block.ctxClosing 7).closeSession 0 :=
    closeCodecOf_of_single_session _ (x := session) (by decide +kernel) (by rw [closeSession_eq]; decide +kernel)
  rw [teardown_of_idle block (by decide +kernel) (by decide +kernel) (by decide +kernel), hcodec, closeSession_eq]

/-- LOW of boom 512 (R337) is EN of context 7: the loan leaves 7 of 8 buffers free, which is WARN, and sets it again. -/
theorem teardown_leaves_en_set : (block.teardown 7).rb (XL_CTX_CFG 7) 31 = true := by
  rw [teardown_eq]
  decide +kernel

end StrayWaiter

end Sys2Proof.Machine

open Sys2Proof Sys2Proof.Machine

/-- Refutes O45: its clause on teardowns says of every state that EN of the context is 0 afterwards. In
`StrayWaiter.block`, where a thread number that the block does not have waits for a boom buffer, the teardown of context 7
grants that thread its buffer and leaves EN at 1. -/
theorem not_contextsAndInvalidationsFollowTheirWrites :
    ¬ Obligations.ContextsAndInvalidationsFollowTheirWrites := by
  unfold Obligations.ContextsAndInvalidationsFollowTheirWrites
  intro h
  have hport : StrayWaiter.block.portCase (XL_CTX_CFG 7) = .go := by decide +kernel
  have hactive : StrayWaiter.block.rf (XL_CTX_CFG 7) 28 2 = 1 := by decide +kernel
  obtain ⟨-, -, hctx, -⟩ := h { pending := [], blk := StrayWaiter.block } 0
  obtain ⟨-, hdown, -⟩ := hctx 7 (by decide) hport
  have hends := holds_of_ends (hdown hactive rfl) (exec_contextTeardown_of_active _ (by decide) hport hactive rfl)
  obtain ⟨-, hen, -⟩ := hends
  rw [Block.rb, reg_settle, Block.answer, reg_setBus] at hen
  exact Bool.noConfusion (hen.symm.trans StrayWaiter.teardown_leaves_en_set)

end

section
/-! O28: an MMA.ZERO and an MMA.I8 that work end with one bank, their command and the tally changed. -/

namespace Sys2Proof

/-! Maps: the change of one entry, and a list of writes. -/

theorem SMap.find_modify {α : Type} (m : SMap α) (k j : Nat) (f : α → α) :
    SMap.find (SMap.modify m k f) j = if j = k then (SMap.find m k).map f else SMap.find m j := by
  induction m with
  | nil => simp [SMap.modify, SMap.find]
  | cons e m ih =>
    obtain ⟨k', v⟩ := e
    unfold SMap.modify at ih ⊢
    by_cases hk : k' = k
    · subst hk
      by_cases hj : j = k' <;> simp_all [SMap.find]
    · have hkk : k ≠ k' := fun h => hk h.symm
      by_cases hj : j = k' <;> simp_all [SMap.find]

/-- A read after a list of writes, all of which give the place read the same value. -/
theorem SMap.get_foldl_set {α : Type} [DecidableEq α] {d : Nat → α} {ws : List (Nat × α)} {k : Nat} {v : α}
    (hv : ∀ w ∈ ws, w.1 = k → w.2 = v) (m : SMap α) :
    SMap.get d (ws.foldl (fun m w => SMap.set d m w.1 w.2) m) k =
      if k ∈ ws.map Prod.fst then v else SMap.get d m k := by
  induction ws generalizing m with
  | nil => simp
  | cons w ws ih =>
    have hw : w.1 = k → w.2 = v := hv w List.mem_cons_self
    rw [List.foldl_cons, ih (fun x hx => hv x (List.mem_cons_of_mem _ hx)), SMap.get_set]
    by_cases hk : k = w.1
    · simp [hk, hw hk.symm]
    · simp only [List.map_cons, List.mem_cons, hk, false_or, if_false]

namespace Machine

/-! Banks and commands after a write. -/

theorem Block.bank_setBank (b : Block) (k j : Nat) (x : Bank) :
    (b.setBank k x).bank j = if j = k then x else b.bank j :=
  SMap.get_set b.fk.banks k j x

theorem Block.findCmd_finish {b : Block} {id : Nat} {c : Cmd} (hc : b.findCmd id = some c) (st y : Nat) :
    (b.finish id st).findCmd y =
      if y = id then some { c with phase := .finished st, active := false } else b.findCmd y := by
  have hc : SMap.find b.fk.cmds id = some c := hc
  simp [Block.finish, Block.modCmd, Block.findCmd, SMap.find_modify, hc]

/-! What a product leaves in a bank. -/

/-- The words that an MMA writes, with their places in the bank. -/
def mmaWords (op : Nat) (seed : Nat → Nat) (x : Bank) (rows cols : List (List Nat)) : List (Nat × Word) :=
  rows.zipIdx.flatMap fun r => cols.zipIdx.map fun q =>
    (64 * r.2 + q.2, mmaWord op (seed (64 * r.2 + q.2)) (x.word r.2 q.2) r.1 q.1)

theorem mmaBank_elems (op : Nat) (seed : Nat → Nat) (x : Bank) (rows cols : List (List Nat)) :
    (mmaBank op seed x rows cols).elems =
      (mmaWords op seed x rows cols).foldl (fun m w => SMap.set zeroW m w.1 w.2) x.elems := rfl

theorem mem_mmaWords {op : Nat} {seed : Nat → Nat} {x : Bank} {rows cols : List (List Nat)} {w : Nat × Word} :
    w ∈ mmaWords op seed x rows cols ↔ ∃ m n, ∃ (hm : m < rows.length) (hn : n < cols.length),
      w = (64 * m + n, mmaWord op (seed (64 * m + n)) (x.word m n) rows[m] cols[n]) := by
  simp only [mmaWords, List.mem_flatMap, List.mem_map, List.mem_zipIdx_iff_getElem?, List.getElem?_eq_some_iff,
    Prod.exists]
  constructor
  · rintro ⟨_, m, ⟨hm, hrow⟩, _, n, ⟨hn, hcol⟩, rfl⟩
    exact ⟨m, n, hm, hn, by rw [hrow, hcol]⟩
  · rintro ⟨m, n, hm, hn, rfl⟩
    exact ⟨_, m, ⟨hm, rfl⟩, _, n, ⟨hn, rfl⟩, rfl⟩

/-- The columns lie below 64, so no two words of a product share a place. -/
theorem val_of_mem_mmaWords {op : Nat} {seed : Nat → Nat} {x : Bank} {rows cols : List (List Nat)} {m n : Nat}
    {w : Nat × Word} (hcols : cols.length ≤ 64) (hn : n < 64) (hw : w ∈ mmaWords op seed x rows cols)
    (hplace : w.1 = 64 * m + n) : ∃ (hm : m < rows.length) (hn : n < cols.length),
      w.2 = mmaWord op (seed (64 * m + n)) (x.word m n) rows[m] cols[n] := by
  obtain ⟨i, j, hi, hj, rfl⟩ := mem_mmaWords.1 hw
  obtain ⟨rfl, rfl⟩ : i = m ∧ j = n := by
    have : 64 * i + j = 64 * m + n := hplace
    omega
  exact ⟨hi, hj, rfl⟩

theorem word_mmaBank {op : Nat} {seed : Nat → Nat} {x : Bank} {rows cols : List (List Nat)} {m n : Nat}
    (hcols : cols.length ≤ 64) (hn64 : n < 64) :
    (mmaBank op seed x rows cols).word m n =
      if h : m < rows.length ∧ n < cols.length then mmaWord op (seed (64 * m + n)) (x.word m n) rows[m] cols[n]
      else x.word m n := by
  rw [Bank.word, mmaBank_elems]
  split
  case isTrue h =>
    obtain ⟨hm, hn⟩ := h
    have hval : ∀ w ∈ mmaWords op seed x rows cols, w.1 = 64 * m + n →
        w.2 = mmaWord op (seed (64 * m + n)) (x.word m n) rows[m] cols[n] := fun w hw heq => by
      obtain ⟨_, _, h⟩ := val_of_mem_mmaWords hcols hn64 hw heq
      exact h
    rw [SMap.get_foldl_set hval, if_pos]
    exact List.mem_map.2 ⟨_, mem_mmaWords.2 ⟨m, n, hm, hn, rfl⟩, rfl⟩
  case isFalse h =>
    have haway : ∀ w ∈ mmaWords op seed x rows cols, w.1 ≠ 64 * m + n := fun w hw heq => by
      obtain ⟨hm, hn, -⟩ := val_of_mem_mmaWords hcols hn64 hw heq
      exact h ⟨hm, hn⟩
    rw [SMap.get_foldl_set (v := 0) (fun w hw heq => absurd heq (haway w hw)), if_neg]
    · rfl
    · intro hmem
      obtain ⟨w, hw, heq⟩ := List.mem_map.1 hmem
      exact haway w hw heq

theorem mmaInt_eq_add_sum (a0 : Word) (xs ys : List Nat) :
    mmaInt a0 xs ys = a0 + BitVec.ofInt 32 (((xs.zip ys).map fun e => sext 8 e.1 * sext 8 e.2).sum) := by
  rw [List.sum_eq_foldl, List.foldl_map, mmaInt]

/-! The frame of a matrix command. -/

theorem RegsOnly.of_countsOnly {os : List Nat} {b b' : Block} (h : CountsOnly b b') : RegsOnly os b b' :=
  ⟨h.pins, h.bus, h.ext, h.free, h.ao, h.fk, fun o _ ho => h.regs o List.not_mem_nil ho⟩

/-- Settling sets the interrupt output alone. -/
theorem settle_eq (b : Block) : settle b = { b with pins := { b.pins with irq := (settle b).pins.irq } } := by
  obtain ⟨hpins, -, -, -, -, -, -⟩ := CountsOnly.settle b
  rw [← hpins, ← settle_bus b, ← settle_ao b, ← settle_fk b, ← settle_ext b, ← settle_free b]

/-- A cause bit lies in the one register of its branch. -/
theorem Block.cause_regsOnly (b : Block) (branch i : Nat) : RegsOnly [INT_CAUSE branch] b (b.cause branch i) where
  pins := by rw [Block.cause, Block.wf, setReg_pins]
  bus := setReg_bus ..
  ext := setReg_ext ..
  free := setReg_free ..
  ao := setReg_ao ..
  fk := by rw [Block.cause, Block.wf, setReg_fk]
  regs _ ho _ := reg_wf_other b _ _ _ (List.ne_of_not_mem_cons ho)

/-- The command `id` is over as `d` says and bank `k` is `x`; every other bank and command, and all else but the
registers of a list and counting, is as before. -/
structure BankWorkDone (os : List Nat) (b : Block) (k : Nat) (x : Bank) (id : Nat) (d : Cmd) (b' : Block) : Prop where
  bank : b'.bank k = x
  banks : ∀ j, j ≠ k → b'.bank j = b.bank j
  cmd : b'.findCmd id = some d
  cmds : ∀ y, y ≠ id → b'.findCmd y = b.findCmd y
  rest : RegsOnly os b { b' with fk := { b'.fk with banks := b.fk.banks, cmds := b.fk.cmds } }

/-- A command whose work wrote one bank, and else changed registers of a list and counted, finishes. -/
theorem BankWorkDone.of_finish {os : List Nat} {b b₁ : Block} {k id : Nat} {x : Bank} {c : Cmd}
    (h : RegsOnly os (b.setBank k x) b₁) (hc : b.findCmd id = some c) (st : Nat) :
    BankWorkDone os b k x id { c with phase := .finished st, active := false } (b₁.finish id st) := by
  have hbank : ∀ j, (b₁.finish id st).bank j = if j = k then x else b.bank j := fun j => by
    rw [← Block.bank_setBank]
    exact congrArg (SMap.get bankZero · j) (by rw [h.fk] : b₁.fk.banks = (b.setBank k x).fk.banks)
  have hfind : ∀ y, b₁.findCmd y = b.findCmd y := fun y =>
    congrArg (SMap.find · y) (by rw [h.fk]; rfl : b₁.fk.cmds = b.fk.cmds)
  have hcmd := Block.findCmd_finish ((hfind id).trans hc) st
  exact {
    bank := by simp [hbank]
    banks := fun j hj => by simp [hbank, hj]
    cmd := by simp [hcmd]
    cmds := fun y hy => by simp [hcmd, hy, hfind]
    rest := ⟨h.pins, h.bus, h.ext, h.free, h.ao,
      congrArg (fun k : Fk => { k with banks := b.fk.banks, cmds := b.fk.cmds }) h.fk, h.regs⟩ }

theorem BankWorkDone.settle {os : List Nat} {b b' : Block} {k id : Nat} {x : Bank} {d : Cmd}
    (h : BankWorkDone os b k x id d b') : BankWorkDone os b k x id d (settle b') := by
  obtain ⟨hbank, hbanks, hcmd, hcmds, hpins, hbus, hext, hfree, hao, hfk, hregs⟩ := h
  rw [settle_eq]
  exact ⟨hbank, hbanks, hcmd, hcmds, congrArg (fun p : Pins => { p with irq := (Machine.settle b').pins.irq }) hpins,
    hbus, hext, hfree, hao, hfk, hregs⟩

/-! The work of the two commands. -/

/-- R195: the bank as an MMA.ZERO of a job leaves it. -/
def zeroedBank (job : Nat) : Bank := { cls := 0, owner := some job, elems := [] }

theorem mmaZeroWork_done {b : Block} {id : Nat} {c : Cmd} (hc : b.findCmd id = some c) :
    BankWorkDone [INT_CAUSE 2] b c.bankKey (zeroedBank c.job) id { c with phase := .finished stDone, active := false }
      (b.mmaZeroWork id c) := by
  unfold Block.mmaZeroWork
  extract_lets taken b₀
  have h : RegsOnly [INT_CAUSE 2] b b₀ := by
    unfold b₀
    split
    · exact b.cause_regsOnly 2 0
    · exact .of_countsOnly (.refl b)
  have hset : RegsOnly [INT_CAUSE 2] (b.setBank c.bankKey (zeroedBank c.job))
      (b₀.setBank c.bankKey (zeroedBank c.job)) :=
    ⟨h.pins, h.bus, h.ext, h.free, h.ao,
      congrArg (fun k : Fk => { k with banks := SMap.set bankZero k.banks c.bankKey (zeroedBank c.job) }) h.fk, h.regs⟩
  exact .of_finish hset hc stDone

theorem mmaWork_done {b : Block} {id : Nat} {c : Cmd} {rows cols : List (List Nat)} (hc : b.findCmd id = some c)
    (hrows : b.rowsOf c c.ta = some rows) (hcols : b.rowsOf c c.tb = some cols) :
    BankWorkDone [] { b with free := b.free + 4096 } c.bankKey
      (mmaBank c.form.op.toNat (fun i => Config.freeNat (b.free + i)) (b.bank c.bankKey) rows cols) id
      { c with phase := .finished stDone, active := false } (b.mmaWork id c) := by
  simp only [Block.mmaWork, hrows, hcols]
  exact .of_finish (b := { b with free := b.free + 4096 }) (tally_counts ..) hc stDone

/-! The rows of the two commands. -/

/-- A row of the work of command `id` of a live block, which is accepted, waits for nothing, is of the row and is the
first of its unit, does that work. -/
theorem ends_of_first_work {i : Instr} {s : State} {id : Nat} {c : Cmd} {p : Cmd → Bool} {f : Cmd → Block → Block}
    {P : Block → Prop}
    (hexec : exec i s = s.upd (·.whenLive fun b => b.workOn id p fun c b => b.guard (b.firstOf id c) (f c)))
    (hlive : s.blk.live = true) (hc : s.blk.findCmd id = some c) (hphase : c.phase = .accepted)
    (hwaits : s.blk.cmdWaits c = false) (hfirst : s.blk.firstOf id c = true) (hp : p c = true)
    (h : P (settle (f c s.blk))) : Ends i s P := by
  refine ⟨_, hexec, rfl, ?_⟩
  simpa [whenLive_of s.blk _ hlive, Block.workOn, hc, hphase, hwaits, hp, hfirst] using h

end Machine
end Sys2Proof

open Sys2Proof Sys2Proof.Machine

/-- Settles O28: each of the two commands changes the block as `BankWorkDone` says, and the words of the product are
those of `word_mmaBank` with the exact sum of `mmaInt_eq_add_sum`. -/
theorem matrixBanksAreZeroedAndAccumulate : Obligations.MatrixBanksAreZeroedAndAccumulate := by
  constructor
  case left =>
    intro s id c hlive hc hop hphase hwaits hfirst
    refine ends_of_first_work rfl hlive hc hphase hwaits hfirst (by simp [hop]) ?_
    obtain ⟨hbank, hbanks, hcmd, hcmds, hrest⟩ := (mmaZeroWork_done hc).settle
    simp only [hbank]
    exact ⟨fun _ _ => rfl, rfl, rfl, hbanks, hcmd, hcmds, hrest⟩
  case right =>
    intro s id c rows cols hlive hc hop hform hphase hwaits hfirst hrows hcols _ hlen
    refine ends_of_first_work rfl hlive hc hphase hwaits hfirst (by simp [isRow, hop, hform]) ?_
    obtain ⟨hbank, hbanks, hcmd, -, hrest⟩ := (mmaWork_done hc hrows hcols).settle
    simp only [hbank]
    refine ⟨fun m n => ?_, by simp [mmaBank, mmaClass, hform], rfl, hbanks, hcmd,
      ⟨hrest.pins, hrest.bus, hrest.ext, rfl, hrest.ao, hrest.fk, hrest.regs⟩⟩
    split
    case isTrue h =>
      rw [word_mmaBank hlen (Nat.lt_of_lt_of_le h.2 hlen), dif_pos h, ← mmaInt_eq_add_sum, mmaWord, hform]
      exact if_pos rfl
    case isFalse h =>
      split
      case isTrue hn => rw [word_mmaBank hlen hn, dif_neg h]
      case isFalse => rfl

end

section
/-! O48: what the write of a completion and the host's writes to rings and causes leave of the block. -/

namespace Sys2Proof.Machine

/-- The block with other rings. -/
def Block.withRings (b : Block) (rings : SMap Ring) : Block := { b with fk := { b.fk with rings := rings } }

/-- The block with another memory side and other rings, sync counters and threads. -/
def Block.withParts (b : Block) (ext : Ext) (rings : SMap Ring) (counters : SMap Counter)
    (threads : SMap Thread) : Block :=
  { b with ext := ext, fk := { b.fk with rings := rings, counters := counters, threads := threads } }

theorem withParts_withParts (b : Block) (e e' : Ext) (r r' : SMap Ring) (c c' : SMap Counter) (t t' : SMap Thread) :
    (b.withParts e r c t).withParts e' r' c' t' = b.withParts e' r' c' t' := rfl

/-! Frames: registers of a list, beside parts of the block that both sides have replaced. -/

namespace RegsOnly

variable {os : List Nat} {b b' b'' : Block}

theorem refl (os : List Nat) (b : Block) : RegsOnly os b b := .of_countsOnly (CountsOnly.refl b)

theorem trans (h : RegsOnly os b b') (k : RegsOnly os b' b'') : RegsOnly os b b'' where
  pins := by rw [k.pins, h.pins]
  bus := by rw [k.bus, h.bus]
  ext := by rw [k.ext, h.ext]
  free := by rw [k.free, h.free]
  ao := by rw [k.ao, h.ao]
  fk := by rw [k.fk, h.fk]
  regs o hn ho := by rw [k.regs o hn ho, h.regs o hn ho]

theorem mono {os' : List Nat} (h : RegsOnly os b b') (hsub : os ⊆ os') : RegsOnly os' b b' :=
  ⟨h.pins, h.bus, h.ext, h.free, h.ao, h.fk, fun o hn ho => h.regs o (fun hmem => hn (hsub hmem)) ho⟩

theorem setReg {o : Nat} (b : Block) (w : Word) (ho : o ∈ os) : RegsOnly os b (b.setReg o w) where
  pins := by rw [setReg_pins]
  bus := setReg_bus ..
  ext := setReg_ext ..
  free := setReg_free ..
  ao := setReg_ao ..
  fk := by rw [setReg_fk]
  regs _ hn _ := reg_setReg_other b w fun h => hn (h ▸ ho)

theorem satAdd {o : Nat} (b : Block) (lo len n : Nat) (ho : o ∈ os) : RegsOnly os b (b.satAdd o lo len n) :=
  .setReg b _ ho

theorem withRings (h : RegsOnly os b b') (rings : SMap Ring) : RegsOnly os (b.withRings rings) (b'.withRings rings) :=
  ⟨h.pins, h.bus, h.ext, h.free, h.ao, congrArg (fun k : Fk => { k with rings := rings }) h.fk, h.regs⟩

/-- The rings that a change started from do not matter once they are put back. -/
theorem ringsAside {rings : SMap Ring} (h : RegsOnly os (b.withRings rings) b') :
    RegsOnly os b (b'.withRings b.fk.rings) := h.withRings b.fk.rings

theorem setRing (h : RegsOnly os b b') (r : Nat) (f : Ring → Ring) :
    RegsOnly os b ((b'.setRing r f).withRings b.fk.rings) := h.withRings b.fk.rings

theorem withParts (h : RegsOnly os b b') (ext : Ext) (rings : SMap Ring) (counters : SMap Counter)
    (threads : SMap Thread) :
    RegsOnly os (b.withParts ext rings counters threads) (b'.withParts ext rings counters threads) :=
  ⟨h.pins, h.bus, rfl, h.free, h.ao,
    congrArg (fun k : Fk => { k with rings := rings, counters := counters, threads := threads }) h.fk, h.regs⟩

theorem rings_eq (h : RegsOnly os b b') : b'.fk.rings = b.fk.rings := by rw [h.fk]
theorem counters_eq (h : RegsOnly os b b') : b'.fk.counters = b.fk.counters := by rw [h.fk]
theorem threads_eq (h : RegsOnly os b b') : b'.fk.threads = b.fk.threads := by rw [h.fk]

end RegsOnly

/-! The form of the commands: what is to be shown of the block before the interrupt output settles. -/

theorem ends_of_upd {i : Instr} {s : State} {f : Block → Block} {P : Block → Prop} (hexec : exec i s = s.upd f)
    (h : ∀ irq, P ((f s.blk).setPins fun p => { p with irq := irq })) : Ends i s P := by
  refine ⟨_, hexec, rfl, ?_⟩
  rw [settle_eq]
  exact h _

theorem ends_of_live_guard {i : Instr} {s : State} {c : Block → Bool} {f : Block → Block} {P : Block → Prop}
    (hexec : exec i s = s.upd fun b => b.whenLive fun b => b.guard (c b) f) (hlive : s.blk.live = true)
    (hc : c s.blk = true) (h : ∀ irq, P ((f s.blk).setPins fun p => { p with irq := irq })) : Ends i s P := by
  refine ends_of_upd hexec fun irq => ?_
  rw [whenLive_of _ _ hlive, guard_of _ _ _ hc]
  exact h irq

/-- The block as a host write that is carried out leaves it: acknowledged, with some level of the interrupt output. -/
def Block.acknowledged (b : Block) (irq : Bool) : Block := (b.answer 0 false).setPins fun p => { p with irq := irq }

theorem ends_of_portWrite {i : Instr} {s : State} {c : Bool} {o : Nat} {data : Word} {f : Block → Block}
    {P : Block → Prop} (hexec : exec i s = s.upd fun b => b.guard c fun b => b.portWrite o data f) (hc : c = true)
    (hgo : s.blk.portCase o = .go) (h : ∀ irq, P ((f s.blk).acknowledged irq)) : Ends i s P := by
  refine ends_of_upd hexec fun irq => ?_
  rw [guard_of _ _ _ hc, Block.portWrite, hgo]
  exact h irq

theorem RegsOnly.setIrq {os : List Nat} {b b' : Block} (h : RegsOnly os b b') (irq : Bool) :
    RegsOnly os b (b'.setPins fun p => { p with irq := irq }) :=
  ⟨congrArg (fun p : Pins => { p with irq := irq }) h.pins, h.bus, h.ext, h.free, h.ao, h.fk, h.regs⟩

theorem RegsOnly.acknowledged {os : List Nat} {b b' : Block} (h : RegsOnly os b b') (irq : Bool) :
    RegsOnly os b { b'.acknowledged irq with bus := b.bus } :=
  ⟨congrArg (fun p : Pins => { p with irq := irq }) h.pins, rfl, h.ext, h.free, h.ao, h.fk, h.regs⟩

theorem RegsOnly.bus_acknowledged {os : List Nat} {b b' : Block} (h : RegsOnly os b b') (irq : Bool) :
    (b'.acknowledged irq).bus = { b.bus with ack := true, rdata := 0, err := false } :=
  congrArg (fun u : Bus => { u with ack := true, rdata := 0, err := false }) h.bus

/-! Registers and their fields. -/

theorem Block.rf_congr {b b' : Block} {o : Nat} (h : b'.reg o = b.reg o) (lo len : Nat) :
    b'.rf o lo len = b.rf o lo len := by
  rw [Block.rf, Block.rf, h]

/-- A field from bit 0 on of a register reads as the word stored. -/
theorem Block.rf_setReg_ofNat (b : Block) (o : Nat) {v len : Nat} (hv : v < 2 ^ len) (hlen : len ≤ 32) :
    (b.setReg o (BitVec.ofNat 32 v)).rf o 0 len = v := by
  have : v < 2 ^ 32 := Nat.lt_of_lt_of_le hv (Nat.pow_le_pow_right (by decide) hlen)
  rw [Block.rf, reg_setReg_same, bits, BitVec.toNat_ofNat, Nat.mod_eq_of_lt this, Nat.shiftRight_zero,
    Nat.mod_eq_of_lt hv]

/-- A count that is held at all ones. -/
theorem Block.rf_satAdd (b : Block) (o lo len n : Nat) (h : lo + len ≤ 32) :
    (b.satAdd o lo len n).rf o lo len = min (b.rf o lo len + n) (2 ^ len - 1) := by
  have : 0 < 2 ^ len := Nat.two_pow_pos len
  rw [Block.satAdd, rf_wf_same b o lo len _ h, Nat.mod_eq_of_lt (by omega)]

theorem setBits_one {n : Nat} (x : BitVec n) (i : Nat) : setBits x i 1 1 = x ||| BitVec.ofNat n (2 ^ i) := by
  apply BitVec.eq_of_getLsbD_eq
  intro j hj
  rw [setBits_getLsbD x i 1 1 j hj, BitVec.getLsbD_or, BitVec.getLsbD_ofNat, Nat.testBit_two_pow]
  by_cases h : i = j
  · subst h; simp [hj]
  · rw [if_neg (by omega)]; simp [h]

theorem Block.reg_cause (b : Block) (branch i : Nat) :
    (b.cause branch i).reg (INT_CAUSE branch) = b.reg (INT_CAUSE branch) ||| BitVec.ofNat 32 (2 ^ i) := by
  rw [Block.cause, Block.wf, reg_setReg_same, setBits_one]

theorem Block.rb_cause (b : Block) (branch : Nat) {i : Nat} (hi : i < 32) :
    (b.cause branch i).rb (INT_CAUSE branch) i = true := by
  rw [Block.rb, Block.reg_cause, bit, BitVec.getLsbD_or, BitVec.getLsbD_ofNat, Nat.testBit_two_pow_self]
  simp [hi]

/-- A register of the control island is no part of the VDD_FK units. -/
theorem setReg_fk_of_ao (b : Block) {o : Nat} (w : Word) (h : isAo o = true) : (b.setReg o w).fk = b.fk := by
  rw [Block.setReg, if_pos h]; rfl

theorem writeReg_of_rw (b : Block) {o : Nat} {rw reset : Word} (data : Word) (h : regInfo o = some (rwReg rw reset)) :
    b.writeReg o data = b.setReg o ((b.reg o &&& ~~~rw) ||| (data &&& rw)) := by
  rw [Block.writeReg, h]
  simp only [writeBits, rwReg, BitVec.ofNat_eq_ofNat, BitVec.and_zero, BitVec.not_zero, BitVec.and_allOnes]

theorem writeReg_of_w1c (b : Block) {o : Nat} {w1c reset : Word} (data : Word) (h : regInfo o = some (w1cReg w1c reset)) :
    b.writeReg o data = b.setReg o (b.reg o &&& ~~~(data &&& w1c)) := by
  rw [Block.writeReg, h]
  simp only [writeBits, w1cReg, BitVec.ofNat_eq_ofNat, BitVec.and_zero, BitVec.not_zero, BitVec.and_allOnes,
    BitVec.or_zero]

theorem regInfo_crSize {r : Nat} (hr : r < 16) : regInfo (CR_SIZE r) = some (rwReg (BitVec.ofNat 32 (2 ^ 15 - 1)) 0) := by
  revert r; decide

theorem regInfo_intCause {n : Nat} (hn : n < 9) : regInfo (INT_CAUSE n) = some (w1cReg (causeMask n) 0) := by
  revert n; decide

/-- A field from bit 0 on takes what is written to it. -/
theorem bits_masked (old data : Word) {len : Nat} (h : len ≤ 32) :
    bits ((old &&& ~~~BitVec.ofNat 32 (2 ^ len - 1)) ||| (data &&& BitVec.ofNat 32 (2 ^ len - 1))) 0 len =
      data.toNat % 2 ^ len := by
  apply Nat.eq_of_testBit_eq
  intro i
  simp only [bits, Nat.testBit_mod_two_pow, Nat.shiftRight_zero, BitVec.testBit_toNat]
  by_cases hi : i < len
  · have hi' : i < 32 := by omega
    have hmask : (BitVec.ofNat 32 (2 ^ len - 1)).getLsbD i = true := by
      simp only [BitVec.getLsbD_ofNat, hi', Nat.testBit_two_pow_sub_one, hi, decide_true, Bool.and_self]
    simp only [BitVec.getLsbD_or, BitVec.getLsbD_and, BitVec.getLsbD_not, hmask, Bool.not_true, Bool.and_false,
      Bool.and_true, Bool.false_or]
  · simp [hi]

/-- A ring's registers are none that counting changes. -/
theorem not_countReg_CR {r f : Nat} (hr : r < 16) (hf : f < 0x40) : ¬countReg (CR r f) := by
  unfold countReg CR INT_CAUSE; omega

theorem CR_not_mem_cause (r f : Nat) : CR r f ∉ [INT_CAUSE 0] := by
  rw [List.mem_singleton, CR, INT_CAUSE]; omega

theorem not_countReg_intCause_zero : ¬countReg (INT_CAUSE 0) := by decide

/-! Rings. -/

theorem Block.ring_congr {b b' : Block} (h : b'.fk.rings = b.fk.rings) (r : Nat) : b'.ring r = b.ring r := by
  rw [Block.ring, Block.ring, h]

@[simp] theorem Block.ring_setRing_same (b : Block) (r : Nat) (f : Ring → Ring) : (b.setRing r f).ring r = f (b.ring r) :=
  SMap.get_set_same ..

theorem Block.ring_setRing_other (b : Block) {r x : Nat} (f : Ring → Ring) (h : x ≠ r) :
    (b.setRing r f).ring x = b.ring x :=
  SMap.get_set_other _ _ h

theorem Block.ring_setReg (b : Block) (o : Nat) (w : Word) (r : Nat) : (b.setReg o w).ring r = b.ring r :=
  Block.ring_congr (by rw [setReg_fk]) r

theorem Block.reg_setRing (b : Block) (r : Nat) (f : Ring → Ring) (o : Nat) : (b.setRing r f).reg o = b.reg o := rfl

/-! The place and the time of a record, and the sizes and places of a ring, are read from the registers. -/

theorem Block.pair_congr {b b' : Block} (h : ∀ o, b'.reg o = b.reg o) (lo : Nat) : b'.pair lo = b.pair lo := by
  rw [Block.pair, Block.pair, h, h]

theorem Block.now_congr {b b' : Block} (hao : b'.ao = b.ao) (h : ∀ o, b'.reg o = b.reg o) : b'.now = b.now := by
  rw [Block.now, Block.now, hao, Block.pair_congr h]

theorem Block.crTail_congr {b b' : Block} {r : Nat} (h : b'.reg (CR_TAIL r) = b.reg (CR_TAIL r)) :
    b'.crTail r = b.crTail r := by
  rw [Block.crTail, Block.crTail, Block.rf_congr h]

theorem Block.crHead_congr {b b' : Block} {r : Nat} (h : b'.reg (CR_HEAD r) = b.reg (CR_HEAD r)) :
    b'.crHead r = b.crHead r := by
  rw [Block.crHead, Block.crHead, Block.rf_congr h]

theorem Block.crEntries_congr {b b' : Block} {r : Nat} (h : b'.reg (CR_SIZE r) = b.reg (CR_SIZE r)) :
    b'.crEntries r = b.crEntries r := by
  rw [Block.crEntries, Block.crEntries, Block.rf_congr h]

theorem ringSize_le (raw top : Nat) : ringSize raw top ≤ top := by
  unfold ringSize; split <;> omega

/-- R397: a SIZE that acts is a power of two. -/
theorem ringSize_of_lt {v : Nat} (hv : v < 2 ^ 15) :
    ringSize v 16384 = if 16 ≤ v ∧ v ∈ (List.range 15).map (2 ^ ·) then v else 0 := by
  have hpow : v &&& (v - 1) = 0 ∧ v ≠ 0 ↔ v ∈ (List.range 15).map (2 ^ ·) := by
    rw [and_comm, Nat.ne_zero_and_sub_one_eq_zero_iff_isPowerOfTwo]
    simp only [List.mem_map, List.mem_range]
    constructor
    · rintro ⟨k, rfl⟩
      exact ⟨k, (Nat.pow_lt_pow_iff_right (by decide)).1 hv, rfl⟩
    · rintro ⟨k, -, rfl⟩
      exact ⟨k, rfl⟩
  have hle : v ∈ (List.range 15).map (2 ^ ·) → v ≤ 16384 := by
    simp only [List.mem_map, List.mem_range]
    rintro ⟨k, hk, rfl⟩
    exact Nat.pow_le_pow_right (j := 14) (by decide) (by omega)
  have hiff : (16 ≤ v ∧ v ≤ 16384 ∧ v &&& (v - 1) = 0) ↔ 16 ≤ v ∧ v ∈ (List.range 15).map (2 ^ ·) := by
    constructor
    · rintro ⟨h16, -, hand⟩
      exact ⟨h16, hpow.1 ⟨hand, by omega⟩⟩
    · rintro ⟨h16, hmem⟩
      exact ⟨h16, hle hmem, (hpow.2 hmem).1⟩
  simp only [ringSize, hiff]

/-! Completions (R395, R397, R399). -/

theorem readBytes_memWrite (xs : List Byte) (m : SMap Byte) (a : Nat) :
    readBytes (memGet (memWrite m a xs)) a xs.length = xs := by
  induction xs generalizing m a with
  | nil => rfl
  | cons v vs ih =>
    have hhead : memGet (memWrite (memSet m a v) (a + 1) vs) a = v := by
      rw [memGet_memWrite_outside vs _ (by omega)]
      exact SMap.get_set_same ..
    rw [List.length_cons, readBytes, memWrite, ih, hhead]

theorem Block.xnat_congr {b b' : Block} (h : b'.ext = b.ext) (a n : Nat) : b'.xnat a n = b.xnat a n := by
  rw [Block.xnat, Block.xnat, h]

/-- A record reads back as it was written. -/
theorem Block.xnat_xwrite_record (b : Block) (a : Nat) (x : BitVec 256) :
    (b.xwrite a (leBytes 32 x.toNat)).xnat a 32 = x.toNat := by
  have hread := readBytes_memWrite (leBytes 32 x.toNat) b.ext.mem a
  rw [leBytes_length] at hread
  rw [Block.xnat, Block.xwrite_ext, memNat, hread, leNat_leBytes]
  exact Nat.mod_eq_of_lt x.isLt

/-- The record of a completion is in its place, and the ring's own state has moved on (R395, R397). -/
def Block.placeCompletion (b : Block) (r : Nat) (c : Completion) : Block :=
  let b' := b.xwrite (b.pair (CR_BASE_LO r) + 32 * b.crTail r) (leBytes 32 (c.record (b.ring r).pass b.now).toNat)
  b'.setRing r fun x =>
    { x with pend := x.pend.erase c, since := x.since + 1
             pass := if b.crTail r + 1 = b'.crEntries r then !x.pass else x.pass }

/-- TAIL moves on from `t`, and the completion is counted (R397). -/
def Block.countCompletion (b : Block) (r t : Nat) : Block :=
  (b.setReg (CR_TAIL r) (BitVec.ofNat 32 ((t + 1) % b.crEntries r))).satAdd (CR_STAT r) 16 16 1

/-- The ring's cause where it is due (R399), and the tally of a job that did not end with DONE. -/
def Block.tellCompletion (b : Block) (r : Nat) (c : Completion) : Block :=
  let b := if b.crDue r c then b.causeControl r else b
  if 0x10 ≤ c.status then b.tally 0x22 0 (some c.sq) 1 else b

/-- What follows the record of a completion, at place `t` of the ring. -/
def Block.reportCompletion (b : Block) (r t : Nat) (c : Completion) : Block :=
  ((b.countCompletion r t).tellCompletion r c).signalFor c.sq c.sig

theorem writeRecord_of_ok (b : Block) (a : Nat) (x : BitVec 256) :
    b.writeRecord a x 0 = b.xwrite a (leBytes 32 x.toNat) := if_pos rfl

theorem writeCompletion_eq (b : Block) (r : Nat) (c : Completion) :
    b.writeCompletion r 0 c = (b.placeCompletion r c).reportCompletion r (b.crTail r) c := by
  rw [Block.writeCompletion, writeRecord_of_ok, Block.placeCompletion, Block.reportCompletion, Block.countCompletion,
    Block.tellCompletion]

theorem ext_placeCompletion (b : Block) (r : Nat) (c : Completion) :
    (b.placeCompletion r c).ext = (b.xwrite (b.pair (CR_BASE_LO r) + 32 * b.crTail r)
      (leBytes 32 (c.record (b.ring r).pass b.now).toNat)).ext := rfl

/-- The record reads back from its place. -/
theorem xnat_placeCompletion (b : Block) (r : Nat) (c : Completion) :
    (b.placeCompletion r c).xnat (b.pair (CR_BASE_LO r) + 32 * b.crTail r) 32 =
      (c.record (b.ring r).pass b.now).toNat := by
  rw [Block.xnat_congr (ext_placeCompletion b r c), Block.xnat_xwrite_record]

/-- Every byte outside the record's 32 stays. -/
theorem xget_placeCompletion (b : Block) (r : Nat) (c : Completion) {a : Nat}
    (ha : a < b.pair (CR_BASE_LO r) + 32 * b.crTail r ∨ b.pair (CR_BASE_LO r) + 32 * b.crTail r + 32 ≤ a) :
    (b.placeCompletion r c).xget a = b.xget a := by
  rw [Block.xget, ext_placeCompletion, Block.xwrite_ext, memGet_memWrite_outside _ _ (by rwa [leBytes_length]),
    Block.xget]

theorem ring_placeCompletion (b : Block) (r : Nat) (c : Completion) :
    (b.placeCompletion r c).ring r =
      { b.ring r with
        pend := (b.ring r).pend.erase c, since := (b.ring r).since + 1
        pass := if b.crTail r + 1 = b.crEntries r then !(b.ring r).pass else (b.ring r).pass } := by
  have hring : ∀ a xs, (b.xwrite a xs).ring r = b.ring r := fun _ _ => rfl
  have hsize : ∀ a xs, (b.xwrite a xs).crEntries r = b.crEntries r := fun a xs =>
    Block.crEntries_congr (reg_xwrite b a xs _)
  rw [Block.placeCompletion, Block.ring_setRing_same, hring, hsize]

theorem reg_placeCompletion (b : Block) (r : Nat) (c : Completion) (o : Nat) :
    (b.placeCompletion r c).reg o = b.reg o := by
  rw [Block.placeCompletion, Block.reg_setRing, reg_xwrite]

theorem countCompletion_regsOnly (b : Block) (r t : Nat) :
    RegsOnly [CR_TAIL r, CR_STAT r] b (b.countCompletion r t) :=
  (RegsOnly.setReg b _ List.mem_cons_self).trans (.satAdd _ _ _ _ (List.mem_cons_of_mem _ List.mem_cons_self))

theorem crTail_countCompletion {b : Block} {r : Nat} (hsize : 0 < b.crEntries r) (t : Nat) :
    (b.countCompletion r t).crTail r = (t + 1) % b.crEntries r := by
  have hle : b.crEntries r ≤ 16384 := ringSize_le ..
  have hlt := Nat.mod_lt (t + 1) hsize
  have hother : CR_TAIL r ≠ CR_STAT r := by unfold CR_TAIL CR_STAT CR; omega
  rw [Block.crTail, Block.countCompletion, Block.satAdd, Block.rf_congr (reg_wf_other _ _ _ _ hother),
    Block.rf_setReg_ofNat _ _ (by omega) (by decide)]

theorem rf_countCompletion (b : Block) (r t : Nat) :
    (b.countCompletion r t).rf (CR_STAT r) 16 16 = min (b.rf (CR_STAT r) 16 16 + 1) 0xFFFF := by
  have hother : CR_STAT r ≠ CR_TAIL r := by unfold CR_TAIL CR_STAT CR; omega
  have hmax : 2 ^ 16 - 1 = 0xFFFF := by decide
  rw [Block.countCompletion, Block.rf_satAdd _ _ _ _ _ (by decide), Block.rf_congr (reg_setReg_other b _ hother), hmax]

/-- What tells of a completion: one cause bit and the tally. -/
theorem tellCompletion_regsOnly (b : Block) (r : Nat) (c : Completion) :
    RegsOnly [INT_CAUSE 0] b (b.tellCompletion r c) := by
  have hcause : RegsOnly [INT_CAUSE 0] b (if b.crDue r c then b.causeControl r else b) := by
    split
    · exact b.cause_regsOnly 0 r
    · exact .refl _ b
  rw [Block.tellCompletion]
  split
  · exact hcause.trans (.of_countsOnly (tally_counts ..))
  · exact hcause

/-- R399: a completion that asks for it, or that does not say DONE, sets the ring's cause. -/
theorem rb_tellCompletion {b : Block} {r : Nat} {c : Completion} (hr : r < 16) (hdue : c.irq = true ∨ 16 ≤ c.status) :
    (b.tellCompletion r c).rb (INT_CAUSE 0) r = true := by
  have hcause : (b.causeControl r).rb (INT_CAUSE 0) r = true := b.rb_cause 0 (by omega)
  have hcrDue : b.crDue r c = true := by
    rcases hdue with hirq | hstatus
    · simp [Block.crDue, hirq]
    · simp [Block.crDue, hstatus]
  rw [Block.tellCompletion, if_pos hcrDue]
  split
  · rwa [Block.rb, (tally_counts ..).regs _ List.not_mem_nil not_countReg_intCause_zero]
  · exact hcause

/-- A signal changes the sync counters and the threads that wait on them; a refused one is only counted (R107, R109). -/
theorem signalFor_cases (b : Block) (sq : Nat) (sig : Option (Nat × Nat × Byte)) :
    ∃ counters threads, CountsOnly (b.withParts b.ext b.fk.rings counters threads) (b.signalFor sq sig) := by
  cases sig with
  | none => exact ⟨b.fk.counters, b.fk.threads, .refl b⟩
  | some x =>
    rw [Block.signalFor, Block.signal]
    split
    · exact ⟨_, _, .refl _⟩
    · exact ⟨b.fk.counters, b.fk.threads, tally_counts ..⟩

theorem reg_signalFor (b : Block) (sq : Nat) (sig : Option (Nat × Nat × Byte)) {o : Nat} (ho : ¬countReg o) :
    (b.signalFor sq sig).reg o = b.reg o := by
  obtain ⟨_, _, h⟩ := signalFor_cases b sq sig
  exact h.regs o List.not_mem_nil ho

/-- What follows the record changes the registers of its ring, the ring's cause, the tally, the sync counters and the
threads. -/
theorem reportCompletion_frame (p : Block) (r t : Nat) (c : Completion) :
    ∃ counters threads, RegsOnly [CR_TAIL r, CR_STAT r, INT_CAUSE 0]
      (p.withParts p.ext p.fk.rings counters threads) (p.reportCompletion r t c) := by
  have hcount : RegsOnly [CR_TAIL r, CR_STAT r, INT_CAUSE 0] p (p.countCompletion r t) :=
    (countCompletion_regsOnly ..).mono (by simp)
  have htell := hcount.trans ((tellCompletion_regsOnly (p.countCompletion r t) r c).mono (by simp))
  obtain ⟨counters, threads, hsignal⟩ := signalFor_cases ((p.countCompletion r t).tellCompletion r c) c.sq c.sig
  rw [htell.ext, htell.rings_eq] at hsignal
  exact ⟨counters, threads, (htell.withParts p.ext p.fk.rings counters threads).trans (.of_countsOnly hsignal)⟩

/-- Without a signal the sync counters and the threads stay (R386). -/
theorem reportCompletion_of_no_signal {c : Completion} (hsig : c.sig = none) (p : Block) (r t : Nat) :
    (p.reportCompletion r t c).fk.counters = p.fk.counters ∧
      (p.reportCompletion r t c).fk.threads = p.fk.threads := by
  have htell := tellCompletion_regsOnly (p.countCompletion r t) r c
  have hcount := countCompletion_regsOnly p r t
  rw [Block.reportCompletion, hsig, Block.signalFor]
  exact ⟨htell.counters_eq.trans hcount.counters_eq, htell.threads_eq.trans hcount.threads_eq⟩

theorem ext_reportCompletion (p : Block) (r t : Nat) (c : Completion) :
    (p.reportCompletion r t c).ext = p.ext := by
  obtain ⟨_, _, h⟩ := reportCompletion_frame p r t c
  exact h.ext

theorem ring_reportCompletion (p : Block) (r t : Nat) (c : Completion) :
    (p.reportCompletion r t c).ring r = p.ring r := by
  obtain ⟨_, _, h⟩ := reportCompletion_frame p r t c
  exact Block.ring_congr h.rings_eq r

/-- Stated for any update of the ring, so that none is evaluated where `placeCompletion` is put in. -/
theorem withParts_of_setRing_xwrite (b : Block) (a : Nat) (xs : List Byte) (r : Nat) (f : Ring → Ring) :
    ((b.xwrite a xs).setRing r f).withParts b.ext b.fk.rings b.fk.counters b.fk.threads = b := rfl

theorem setRing_xwrite_waiters (b : Block) (a : Nat) (xs : List Byte) (r : Nat) (f : Ring → Ring) :
    ((b.xwrite a xs).setRing r f).fk.counters = b.fk.counters ∧
      ((b.xwrite a xs).setRing r f).fk.threads = b.fk.threads := ⟨rfl, rfl⟩

/-- A completion changes the registers of its ring, the ring's cause and the tally beside the memory side, the rings, the
sync counters and the threads. -/
theorem writeCompletion_frame (b : Block) (r : Nat) (c : Completion) :
    RegsOnly [CR_TAIL r, CR_STAT r, INT_CAUSE 0] b
      ((b.writeCompletion r 0 c).withParts b.ext b.fk.rings b.fk.counters b.fk.threads) := by
  obtain ⟨_, _, h⟩ := reportCompletion_frame (b.placeCompletion r c) r (b.crTail r) c
  have hback := h.withParts b.ext b.fk.rings b.fk.counters b.fk.threads
  rw [← writeCompletion_eq, withParts_withParts, Block.placeCompletion, withParts_of_setRing_xwrite] at hback
  exact hback

theorem crTail_writeCompletion {b : Block} {r : Nat} (hr : r < 16) (hsize : 0 < b.crEntries r) (c : Completion) :
    (b.writeCompletion r 0 c).crTail r = (b.crTail r + 1) % b.crEntries r := by
  have hcount : ¬countReg (CR_TAIL r) := not_countReg_CR hr (by decide)
  have hcause : CR_TAIL r ∉ [INT_CAUSE 0] := CR_not_mem_cause r _
  have hplace := Block.crEntries_congr (reg_placeCompletion b r c (CR_SIZE r))
  rw [writeCompletion_eq, Block.reportCompletion, Block.crTail_congr (reg_signalFor _ _ _ hcount),
    Block.crTail_congr ((tellCompletion_regsOnly ..).regs _ hcause hcount),
    crTail_countCompletion (by rwa [hplace]), hplace]

theorem rf_writeCompletion (b : Block) {r : Nat} (hr : r < 16) (c : Completion) :
    (b.writeCompletion r 0 c).rf (CR_STAT r) 16 16 = min (b.rf (CR_STAT r) 16 16 + 1) 0xFFFF := by
  have hcount : ¬countReg (CR_STAT r) := not_countReg_CR hr (by decide)
  have hcause : CR_STAT r ∉ [INT_CAUSE 0] := CR_not_mem_cause r _
  rw [writeCompletion_eq, Block.reportCompletion, Block.rf_congr (reg_signalFor _ _ _ hcount),
    Block.rf_congr ((tellCompletion_regsOnly ..).regs _ hcause hcount), rf_countCompletion,
    Block.rf_congr (reg_placeCompletion ..)]

theorem rb_writeCompletion (b : Block) {r : Nat} {c : Completion} (hr : r < 16) (hdue : c.irq = true ∨ 16 ≤ c.status) :
    (b.writeCompletion r 0 c).rb (INT_CAUSE 0) r = true := by
  rw [writeCompletion_eq, Block.reportCompletion, Block.rb, reg_signalFor _ _ _ not_countReg_intCause_zero]
  exact rb_tellCompletion hr hdue

/-! The completion that a ring writes next, sent under its credit (R397). -/

/-- A completion that has no credit yet takes one of its ring (R397). -/
def Block.credited (b : Block) (r : Nat) (c : Completion) : Block := if c.credit then b else b.takeCredit r

/-- The rings alone change. -/
theorem credited_eq (b : Block) (r : Nat) (c : Completion) :
    b.credited r c = b.withRings (b.credited r c).fk.rings := by
  unfold Block.credited; split <;> rfl

theorem reg_credited (b : Block) (r : Nat) (c : Completion) (o : Nat) : (b.credited r c).reg o = b.reg o := by
  rw [credited_eq]; rfl

theorem ring_credited (b : Block) (r : Nat) (c : Completion) :
    (b.credited r c).ring r =
      { b.ring r with inUse := if c.credit = true then (b.ring r).inUse else (b.ring r).inUse + 1 } := by
  unfold Block.credited
  split
  · rfl
  · exact Block.ring_setRing_same ..

/-- The place of the record is that of TAIL, with and without the credit. -/
theorem place_credited (b : Block) (r : Nat) (c : Completion) :
    (b.credited r c).pair (CR_BASE_LO r) + 32 * (b.credited r c).crTail r = b.pair (CR_BASE_LO r) + 32 * b.crTail r := by
  rw [Block.pair_congr (reg_credited b r c), Block.crTail_congr (reg_credited b r c _)]

/-- The first completion of a ring, which has a credit or finds one, is the one written. -/
theorem completionStep_of_credit {b : Block} {r : Nat} {c : Completion} {rest : List Completion}
    (hpend : (b.ring r).pend = c :: rest) (hcredit : c.credit = true ∨ 0 < b.crFree r) (code : Nat) :
    b.completionStep r code = (b.credited r c).writeCompletion r code c := by
  have hfind : (b.ring r).pend.find? (fun c => c.credit || 0 < b.crFree r) = some c := by
    rw [hpend]
    exact List.find?_cons_of_pos (by simpa using hcredit)
  rw [Block.completionStep, hfind, Block.credited]

theorem xnat_sent (b : Block) (r : Nat) (c : Completion) :
    ((b.credited r c).writeCompletion r 0 c).xnat (b.pair (CR_BASE_LO r) + 32 * b.crTail r) 32 =
      (c.record (b.ring r).pass b.now).toNat := by
  have hao : (b.credited r c).ao = b.ao := by rw [credited_eq]; rfl
  rw [writeCompletion_eq, Block.xnat_congr (ext_reportCompletion ..), ← place_credited b r c, xnat_placeCompletion,
    ring_credited, Block.now_congr hao (reg_credited b r c)]

theorem xget_sent (b : Block) (r : Nat) (c : Completion) {a : Nat}
    (ha : a < b.pair (CR_BASE_LO r) + 32 * b.crTail r ∨ b.pair (CR_BASE_LO r) + 32 * b.crTail r + 32 ≤ a) :
    ((b.credited r c).writeCompletion r 0 c).xget a = b.xget a := by
  have hext : (b.credited r c).ext = b.ext := by rw [credited_eq]; rfl
  rw [← place_credited b r c] at ha
  have hplace := xget_placeCompletion _ r c ha
  rw [Block.xget] at hplace
  rw [Block.xget, writeCompletion_eq, ext_reportCompletion, hplace, Block.xget, hext, Block.xget]

theorem ring_sent {b : Block} {r : Nat} {c : Completion} {rest : List Completion} (hpend : (b.ring r).pend = c :: rest) :
    ((b.credited r c).writeCompletion r 0 c).ring r =
      { b.ring r with
        pend := rest, since := (b.ring r).since + 1
        inUse := if c.credit = true then (b.ring r).inUse else (b.ring r).inUse + 1
        pass := if b.crTail r + 1 = b.crEntries r then !(b.ring r).pass else (b.ring r).pass } := by
  have herase : (b.ring r).pend.erase c = rest := by rw [hpend, List.erase_cons_head]
  rw [writeCompletion_eq, ring_reportCompletion, ring_placeCompletion, ring_credited,
    Block.crTail_congr (reg_credited b r c _), Block.crEntries_congr (reg_credited b r c _), herase]

theorem crTail_sent {b : Block} {r : Nat} (hr : r < 16) (hsize : 0 < b.crEntries r) (c : Completion) :
    ((b.credited r c).writeCompletion r 0 c).crTail r = (b.crTail r + 1) % b.crEntries r := by
  have hentries := Block.crEntries_congr (reg_credited b r c (CR_SIZE r))
  rw [crTail_writeCompletion hr (by rwa [hentries]), hentries, Block.crTail_congr (reg_credited b r c _)]

theorem rf_sent (b : Block) {r : Nat} (hr : r < 16) (c : Completion) :
    ((b.credited r c).writeCompletion r 0 c).rf (CR_STAT r) 16 16 = min (b.rf (CR_STAT r) 16 16 + 1) 0xFFFF := by
  rw [rf_writeCompletion _ hr, Block.rf_congr (reg_credited b r c _)]

theorem sent_of_no_signal {b : Block} {r : Nat} {c : Completion} (hsig : c.sig = none) :
    ((b.credited r c).writeCompletion r 0 c).fk.counters = b.fk.counters ∧
      ((b.credited r c).writeCompletion r 0 c).fk.threads = b.fk.threads := by
  obtain ⟨hcounters, hthreads⟩ :=
    reportCompletion_of_no_signal hsig ((b.credited r c).placeCompletion r c) r ((b.credited r c).crTail r)
  have hkeep := setRing_xwrite_waiters
  have hcredited : (b.credited r c).fk.counters = b.fk.counters ∧ (b.credited r c).fk.threads = b.fk.threads := by
    rw [credited_eq]; exact ⟨rfl, rfl⟩
  rw [writeCompletion_eq, hcounters, hthreads, Block.placeCompletion, (hkeep ..).1, (hkeep ..).2]
  exact hcredited

theorem sent_frame (b : Block) (r : Nat) (c : Completion) :
    RegsOnly [CR_TAIL r, CR_STAT r, INT_CAUSE 0] b
      (((b.credited r c).writeCompletion r 0 c).withParts b.ext b.fk.rings b.fk.counters b.fk.threads) := by
  rw [credited_eq]
  generalize (b.credited r c).fk.rings = rings
  exact (writeCompletion_frame (b.withRings rings) r c).withParts b.ext b.fk.rings b.fk.counters b.fk.threads

/-! Host writes to a ring (R398, R399). -/

/-- What a CR_HEAD write asks for: to move HEAD forwards, modulo ENTRIES, by no more than TAIL − HEAD. -/
def Block.crHeadMoves (b : Block) (r : Nat) (data : Word) : Prop :=
  b.crEntries r ≠ 0 ∧ bits data 0 14 < b.crEntries r ∧
    (bits data 0 14 + b.crEntries r - b.crHead r) % b.crEntries r ≤
      (b.crTail r + b.crEntries r - b.crHead r) % b.crEntries r

theorem crHeadWrite_of_moves {b : Block} {r : Nat} {data : Word} (h : b.crHeadMoves r data) :
    b.crHeadWrite r data = (b.setReg (CR_HEAD r) (BitVec.ofNat 32 (bits data 0 14))).setRing r fun x =>
      { x with inUse := x.inUse - (bits data 0 14 + b.crEntries r - b.crHead r) % b.crEntries r } := if_pos h

theorem crHeadWrite_of_not_moves {b : Block} {r : Nat} {data : Word} (h : ¬b.crHeadMoves r data) :
    b.crHeadWrite r data = b.satAdd (CR_STAT r) 0 16 1 := if_neg h

theorem crHeadWrite_regsOnly (b : Block) (r : Nat) (data : Word) :
    RegsOnly [CR_HEAD r, CR_STAT r] b ((b.crHeadWrite r data).withRings b.fk.rings) := by
  by_cases h : b.crHeadMoves r data
  · rw [crHeadWrite_of_moves h]
    exact (RegsOnly.setReg b _ List.mem_cons_self).setRing r _
  · rw [crHeadWrite_of_not_moves h]
    exact (RegsOnly.satAdd b _ _ _ (List.mem_cons_of_mem _ List.mem_cons_self)).withRings b.fk.rings

theorem ring_crHeadWrite_other (b : Block) {r x : Nat} (data : Word) (hx : x ≠ r) :
    (b.crHeadWrite r data).ring x = b.ring x := by
  by_cases h : b.crHeadMoves r data
  · rw [crHeadWrite_of_moves h, Block.ring_setRing_other _ _ hx, Block.ring_setReg]
  · rw [crHeadWrite_of_not_moves h]
    exact Block.ring_setReg ..

/-- R398: HEAD moves, and the credits of the completions that it passes return. -/
theorem crHeadWrite_moved {b : Block} {r : Nat} {data : Word} (h : b.crHeadMoves r data) :
    (b.crHeadWrite r data).crHead r = bits data 0 14 ∧
      (b.crHeadWrite r data).ring r = { b.ring r with
        inUse := (b.ring r).inUse - (bits data 0 14 + b.crEntries r - b.crHead r) % b.crEntries r } ∧
      (b.crHeadWrite r data).reg (CR_STAT r) = b.reg (CR_STAT r) := by
  have hother : CR_STAT r ≠ CR_HEAD r := by unfold CR_STAT CR_HEAD CR; omega
  have hlt : bits data 0 14 < 2 ^ 14 := Nat.mod_lt _ (by decide)
  rw [crHeadWrite_of_moves h]
  refine ⟨?_, ?_, ?_⟩
  · rw [Block.crHead, Block.rf_congr (Block.reg_setRing ..), Block.rf_setReg_ofNat _ _ hlt (by decide)]
  · rw [Block.ring_setRing_same, Block.ring_setReg]
  · rw [Block.reg_setRing, reg_setReg_other _ _ hother]

/-- R398: any other value is ignored and counted in BADHEAD. -/
theorem crHeadWrite_ignored {b : Block} {r : Nat} {data : Word} (h : ¬b.crHeadMoves r data) :
    (b.crHeadWrite r data).crHead r = b.crHead r ∧ (b.crHeadWrite r data).ring r = b.ring r ∧
      (b.crHeadWrite r data).rf (CR_STAT r) 0 16 = min (b.rf (CR_STAT r) 0 16 + 1) 0xFFFF := by
  have hother : CR_HEAD r ≠ CR_STAT r := by unfold CR_STAT CR_HEAD CR; omega
  rw [crHeadWrite_of_not_moves h]
  exact ⟨Block.crHead_congr (reg_wf_other b _ _ _ hother), Block.ring_setReg .., Block.rf_satAdd b _ _ _ _ (by decide)⟩

/-- The ring is idle: no credit is in use and no enabled queue has it (R398). -/
def Block.crIdle (b : Block) (r : Nat) : Prop :=
  (b.ring r).inUse = 0 ∧ ∀ n ∈ List.range 64, b.sqEn n = true → b.sqRing n ≠ r

/-- The test of a CR_SIZE write is that of an idle ring. -/
theorem Block.crIdle_iff (b : Block) (r : Nat) :
    ((b.ring r).inUse == 0 && (List.range 64).all fun n => !(b.sqEn n && b.sqRing n == r)) = true ↔ b.crIdle r := by
  rw [Bool.and_eq_true, beq_iff_eq, List.all_eq_true, Block.crIdle]
  refine and_congr Iff.rfl (forall_congr' fun n => forall_congr' fun _ => ?_)
  cases b.sqEn n
  case false => simp only [Bool.false_and, Bool.not_false, Bool.false_eq_true, false_implies]
  case true =>
    rw [Bool.true_and, Bool.not_eq_true', beq_eq_false_iff_ne]
    exact ⟨fun h _ => h, fun h => h rfl⟩

/-- R398: an idle ring of another size, empty and on its first pass. -/
def Block.crResize (b : Block) (r : Nat) (data : Word) : Block :=
  (((b.writeReg (CR_SIZE r) data).setReg (CR_HEAD r) 0).setReg (CR_TAIL r) 0).setRing r fun x => { x with pass := true }

theorem crSizeWrite_of_idle {b : Block} {r : Nat} (data : Word) (h : b.crIdle r) :
    b.crSizeWrite r data = b.crResize r data :=
  guard_of b _ _ ((b.crIdle_iff r).2 h)

theorem crSizeWrite_of_not_idle {b : Block} {r : Nat} (data : Word) (h : ¬b.crIdle r) :
    b.crSizeWrite r data = b :=
  if_neg fun hidle => h ((b.crIdle_iff r).1 hidle)

/-- SIZE as a write leaves it. -/
theorem rf_writeReg_crSize (b : Block) {r : Nat} (hr : r < 16) (data : Word) :
    (b.writeReg (CR_SIZE r) data).rf (CR_SIZE r) 0 15 = data.toNat % 2 ^ 15 := by
  rw [writeReg_of_rw b data (regInfo_crSize hr), Block.rf, reg_setReg_same, bits_masked _ _ (by decide)]

theorem crResize_regsOnly (b : Block) {r : Nat} (hr : r < 16) (data : Word) :
    RegsOnly [CR_SIZE r, CR_HEAD r, CR_TAIL r] b ((b.crResize r data).withRings b.fk.rings) := by
  have hsize : RegsOnly [CR_SIZE r, CR_HEAD r, CR_TAIL r] b (b.writeReg (CR_SIZE r) data) := by
    rw [writeReg_of_rw b data (regInfo_crSize hr)]
    exact .setReg b _ (by simp)
  exact ((hsize.trans (.setReg _ _ (by simp))).trans (.setReg _ _ (by simp))).setRing r _

/-- R398: the ring has the size written, HEAD and TAIL are 0, and it is on its first pass. -/
theorem crSizeWrite_resizes {b : Block} {r : Nat} (hr : r < 16) (data : Word) (h : b.crIdle r) :
    (b.crSizeWrite r data).rf (CR_SIZE r) 0 15 = data.toNat % 2 ^ 15 ∧ (b.crSizeWrite r data).crHead r = 0 ∧
      (b.crSizeWrite r data).crTail r = 0 ∧ (b.crSizeWrite r data).ring r = { b.ring r with pass := true } := by
  have hsh : CR_SIZE r ≠ CR_HEAD r := by unfold CR_SIZE CR_HEAD CR; omega
  have hst : CR_SIZE r ≠ CR_TAIL r := by unfold CR_SIZE CR_TAIL CR; omega
  have hht : CR_HEAD r ≠ CR_TAIL r := by unfold CR_HEAD CR_TAIL CR; omega
  rw [crSizeWrite_of_idle data h, Block.crResize]
  refine ⟨?_, ?_, ?_, ?_⟩
  · rw [Block.rf_congr (Block.reg_setRing ..), Block.rf_congr (reg_setReg_other _ _ hst),
      Block.rf_congr (reg_setReg_other _ _ hsh), rf_writeReg_crSize b hr]
  · rw [Block.crHead_congr (Block.reg_setRing ..), Block.crHead_congr (reg_setReg_other _ _ hht)]
    exact Block.rf_setReg_ofNat _ _ (by decide) (by decide)
  · rw [Block.crTail_congr (Block.reg_setRing ..)]
    exact Block.rf_setReg_ofNat _ _ (by decide) (by decide)
  · rw [Block.ring_setRing_same, Block.ring_setReg, Block.ring_setReg, writeReg_of_rw b data (regInfo_crSize hr),
      Block.ring_setReg]

theorem crSizeWrite_regsOnly (b : Block) {r : Nat} (hr : r < 16) (data : Word) :
    RegsOnly [CR_SIZE r, CR_HEAD r, CR_TAIL r] b ((b.crSizeWrite r data).withRings b.fk.rings) := by
  by_cases h : b.crIdle r
  · rw [crSizeWrite_of_idle data h]
    exact crResize_regsOnly b hr data
  · rw [crSizeWrite_of_not_idle data h]
    exact .refl _ b

/-- ENTRIES of a ring whose SIZE is known. -/
theorem crEntries_of_size {b : Block} {r v : Nat} (hv : v < 2 ^ 15) (hsize : b.rf (CR_SIZE r) 0 15 = v) :
    b.crEntries r = if 16 ≤ v ∧ v ∈ (List.range 15).map (2 ^ ·) then v else 0 := by
  rw [Block.crEntries, hsize, ringSize_of_lt hv]

/-! Host writes to the causes (R405). -/

theorem ring_each_setRing {f : Ring → Ring} (hf : ∀ x, f (f x) = f x) (rs : List Nat) (b : Block) (r : Nat) :
    (b.each rs fun b r => b.setRing r f).ring r = if r ∈ rs then f (b.ring r) else b.ring r := by
  induction rs generalizing b with
  | nil => rfl
  | cons x rs ih =>
    have hcons : (b.each (x :: rs) fun b r => b.setRing r f).ring r =
      ((b.setRing x f).each rs fun b r => b.setRing r f).ring r := rfl
    rw [hcons, ih]
    by_cases h : r = x
    · subst h; simp [hf]
    · simp [Block.ring_setRing_other _ _ h, h]

/-- R399: the counts of the rings in the mask start again, and nothing else changes. -/
theorem ringsCleared_eq (b : Block) (mask : Word) : ∃ rings, b.ringsCleared mask = b.withRings rings :=
  each_keeps (P := fun x => ∃ rings, x = b.withRings rings) _ _ b ⟨b.fk.rings, rfl⟩ (by
    rintro _ r ⟨rings, rfl⟩
    exact ⟨_, rfl⟩)

theorem ring_ringsCleared (b : Block) (mask : Word) {r : Nat} (hr : r < 16) :
    (b.ringsCleared mask).ring r = if bit mask r = true then { b.ring r with since := 0 } else b.ring r := by
  rw [Block.ringsCleared, ring_each_setRing (f := fun x => { x with since := 0 }) fun _ => rfl]
  simp [hr]

/-- A write of 1 clears a cause bit; with the cause of a ring its count starts again (R399, R405). -/
theorem causeClear_clears (b : Block) {n : Nat} (hn : n < 9) (data : Word) :
    (b.causeClear n data).reg (INT_CAUSE n) = b.reg (INT_CAUSE n) &&& ~~~(data &&& causeMask n) ∧
    (∀ r, r < 16 → (b.causeClear n data).ring r =
      if n = 0 ∧ b.rb (INT_CAUSE 0) r = true ∧ data.getLsbD r = true then { b.ring r with since := 0 } else b.ring r) ∧
    RegsOnly [INT_CAUSE n] b ((b.causeClear n data).withRings b.fk.rings) := by
  obtain ⟨rings, hcleared, hring⟩ : ∃ rings,
      (if n = 0 then b.ringsCleared (b.reg (INT_CAUSE 0) &&& data) else b) = b.withRings rings ∧
      ∀ r, r < 16 → (b.withRings rings).ring r =
        if n = 0 ∧ b.rb (INT_CAUSE 0) r = true ∧ data.getLsbD r = true then { b.ring r with since := 0 } else b.ring r := by
    split
    case isTrue h =>
      obtain ⟨rings, hrings⟩ := ringsCleared_eq b (b.reg (INT_CAUSE 0) &&& data)
      refine ⟨rings, hrings, fun r hr => ?_⟩
      rw [← hrings, ring_ringsCleared _ _ hr]
      simp [h, Block.rb, bit]
    case isFalse h => exact ⟨b.fk.rings, rfl, fun r _ => by simp [h]; rfl⟩
  rw [Block.causeClear, hcleared, writeReg_of_w1c _ data (regInfo_intCause hn)]
  refine ⟨reg_setReg_same .., fun r hr => ?_, (RegsOnly.setReg _ _ List.mem_cons_self).ringsAside⟩
  rw [Block.ring_setReg, hring r hr]

end Sys2Proof.Machine

open Sys2Proof Sys2Proof.Machine

/-- Settles O48, clause by clause: `xnat_sent` to `sent_frame` say what the write of the ring's first completion leaves of
the block, and the lemmas about each host write what that leaves. The interrupt output and the acknowledge of the port
come in once, by `ends_of_live_guard` and `ends_of_portWrite`. -/
theorem ringsTakeCompletionsAndWrites : Obligations.RingsTakeCompletionsAndWrites := by
  constructor
  case left =>
    intro s r c rest hlive hr hsize hpend hcredit x t
    refine ends_of_live_guard (f := (·.completionStep r 0)) rfl hlive (by simpa using hr) fun irq => ?_
    rw [completionStep_of_credit hpend hcredit]
    have hnat := xnat_sent s.blk r c
    have hget := fun a => xget_sent s.blk r c (a := a)
    have hring := ring_sent hpend
    have htail := crTail_sent hr (Nat.lt_of_lt_of_le (by decide) hsize) c
    have hstat := rf_sent s.blk hr c
    have hcause := rb_writeCompletion (s.blk.credited r c) (c := c) hr
    have hsig := sent_of_no_signal (b := s.blk) (r := r) (c := c)
    have hframe := sent_frame s.blk r c
    generalize (s.blk.credited r c).writeCompletion r 0 c = b' at *
    exact ⟨hnat, hget, hring, htail, hstat, hcause, hsig, hframe.setIrq irq⟩
  case right =>
    intro s r data acked
    refine ⟨fun hr hgo => ?head, fun hr hgo => ?size, fun hr hlive hen htime hsince => ?timer,
      fun n hn hgo hgo' => ⟨?clear, ?test⟩⟩
    case head =>
      refine ends_of_portWrite rfl (by simpa using hr) hgo fun irq => ?_
      have hframe := crHeadWrite_regsOnly s.blk r data
      have hother := fun x => ring_crHeadWrite_other s.blk (r := r) (x := x) data
      have hmoved := crHeadWrite_moved (b := s.blk) (r := r) (data := data)
      have hignored := crHeadWrite_ignored (b := s.blk) (r := r) (data := data)
      generalize s.blk.crHeadWrite r data = b' at *
      refine ⟨hframe.bus_acknowledged irq, hother, ?_, hframe.acknowledged irq⟩
      intro n h moved
      split
      case isTrue hmoves => exact hmoved hmoves
      case isFalse hmoves => exact hignored hmoves
    case size =>
      refine ends_of_portWrite rfl (by simpa using hr) hgo fun irq => ?_
      have hframe := crSizeWrite_regsOnly s.blk hr data
      have hresizes := crSizeWrite_resizes (b := s.blk) hr data
      have hbusy := crSizeWrite_of_not_idle (b := s.blk) (r := r) data
      generalize s.blk.crSizeWrite r data = b' at *
      refine ⟨hframe.bus_acknowledged irq, ?_, hframe.acknowledged irq⟩
      split
      case isTrue hidle =>
        obtain ⟨hsize, hhead, htail, hring⟩ := hresizes hidle
        have hentries := crEntries_of_size (Nat.mod_lt _ (by decide)) hsize
        have hfree : b'.crFree r = b'.crEntries r - 1 := by rw [Block.crFree, hring, hidle.1]; rfl
        exact ⟨hsize, hhead, htail, hring, hentries, hfree⟩
      case isFalse hidle =>
        rw [hbusy hidle]
        exact ⟨rfl, rfl, rfl⟩
    case timer =>
      refine ends_of_live_guard (f := (·.causeControl r)) rfl hlive ?_ fun irq => ?_
      · simp [hr, hen, htime, hsince]
      · have hframe := s.blk.cause_regsOnly 0 r
        exact ⟨s.blk.reg_cause 0 r, hframe.setIrq irq, setReg_fk_of_ao _ _ (by decide)⟩
    case clear =>
      refine ends_of_portWrite rfl (by simpa using hn) hgo fun irq => ?_
      obtain ⟨hreg, hring, hframe⟩ := causeClear_clears s.blk hn data
      generalize s.blk.causeClear n data = b' at *
      exact ⟨hframe.bus_acknowledged irq, hreg, hring, hframe.acknowledged irq⟩
    case test =>
      refine ends_of_portWrite rfl (by simpa using hn) hgo' fun irq => ?_
      have hframe : RegsOnly [INT_CAUSE n] s.blk (s.blk.causeTest n data) := .setReg _ _ List.mem_cons_self
      have hset : (s.blk.causeTest n data).reg (INT_CAUSE n) = _ := reg_setReg_same ..
      generalize s.blk.causeTest n data = b' at *
      exact ⟨hframe.bus_acknowledged irq, hset, hframe.acknowledged irq⟩

end
